-- ==== Sys2Proof/Word.lean ====
section
/-! DEFINITION. The two word widths of the block: every stimulus word and command byte has 8 bits, every
register access has 32 (30_encoding.md R61). -/

namespace Sys2Proof

/-- A stimulus word or a single-wire command byte (R61). -/
abbrev Byte := BitVec 8

/-- The value of one register of the register view (R38, R61). -/
abbrev Word := BitVec 32

end Sys2Proof
end

