-- ==== Sys2Proof/Config.lean ====
section
/-! DEFINITION. The parameters of the block (00_scope.md R7). A `Config` is a `Params` that meets the
constraints of R7 and R8: one that does not, such as `CAP < 16`, cannot be built (R8). It stands in State as the
field `cfg`, so that every statement over all states is a statement over all configurations (log 1). -/

namespace Sys2Proof

/-- REG_SIZE, fixed at 16 (R7). -/
abbrev regSize : Nat := 16

/-- The parameters of R7 that are not fixed. -/
structure Params where
  /-- `CAP`, ring capacity in 1-bit entries. -/
  cap : Nat
  /-- `RETRY_N`, configured presence attempts, 0 to 255. -/
  retryN : BitVec 8
  /-- `DECODE_SIGNED`: two's complement (true) or unsigned (false). -/
  decodeSigned : Bool
  /-- `WDT_LIMIT`, phase watchdog limit in polls, 0 to 65535; 0 disables it. -/
  wdtLimit : BitVec 16
  /-- `SWPE_BASE`, base address of the register view. -/
  swpeBase : BitVec 32
  /-- `T_RESET`, reset pulse. -/
  tReset : Nat
  /-- `T_PRES_WIN`, presence window after release. -/
  tPresWin : Nat
  /-- `T_WRITE_SLOT`, write slot. -/
  tWriteSlot : Nat
  /-- `T_WRITE_LOW`, low time before the bit value is driven. -/
  tWriteLow : Nat
  /-- `T_READ_LOW`, low time of a read slot before release. -/
  tReadLow : Nat
  /-- `T_READ_SAMPLE`, capture point after release. -/
  tReadSample : Nat
  /-- `T_READ_SLOT`, read slot, from release to terminal event. -/
  tReadSlot : Nat
  /-- `T_CONV_SETTLE`, fixed settle after the convert command. -/
  tConvSettle : Nat
deriving DecidableEq, Repr

/-- The constraint column of R7, and the sizing law of R8. The row of `T_READ_SAMPLE` says "as above": the whole
constraint of the `T_READ_LOW` row, so `T_READ_SAMPLE` too is at least 1 (log 27). -/
def Params.wf (p : Params) : Bool :=
  decide (regSize ≤ p.cap) && decide (p.cap ≤ 32)
  && decide (p.swpeBase.toNat % 64 = 0)
  && decide (480 ≤ p.tReset) && decide (240 ≤ p.tPresWin) && decide (60 ≤ p.tWriteSlot)
  && decide (1 ≤ p.tWriteLow) && decide (p.tWriteLow ≤ 15)
  && decide (1 ≤ p.tReadLow) && decide (1 ≤ p.tReadSample) && decide (p.tReadLow + p.tReadSample ≤ 15)
  && decide (p.tReadSample < p.tReadSlot)

/-- A configuration: parameters that meet their constraints. -/
structure Config extends Params where
  /-- The constraints of R7 and R8 hold. -/
  wf : toParams.wf = true
deriving DecidableEq, Repr

/-- Build a configuration, or reject the parameters (R8). -/
def Config.ofParams (p : Params) : Option Config :=
  if h : p.wf = true then some { toParams := p, wf := h } else none

/-- The spec's defaults (the "default" column of R7). `SWPE_BASE` and `T_CONV_SETTLE` are OPEN there.
DESIGN CHOICE (log 2, unsafe): 0 for both. Only `State.reset` uses this value; no statement rests on it. -/
def Params.default : Params where
  cap := 16
  retryN := 3
  decodeSigned := true
  wdtLimit := 0
  swpeBase := 0
  tReset := 480
  tPresWin := 480
  tWriteSlot := 60
  tWriteLow := 1
  tReadLow := 1
  tReadSample := 9
  tReadSlot := 60
  tConvSettle := 0

/-- `Params.default` as a configuration. -/
def Config.default : Config := { toParams := Params.default, wf := by decide }

end Sys2Proof
end

