-- ==== Sys2Proof/Syntax.lean ====
section
/-! DEFINITION. The phases, the timers and the instructions of the block: one constructor of `Instr` for each row
of spec/opcode_table.json, in the table's order. The three layers of the "instruction set" are those of
00_scope.md R2: stimuli, per-state POLL arms, and the single-wire command bytes; the host's register accesses
follow them. -/

namespace Sys2Proof

/-- The nine phases of the transaction register (10_state.md R14). -/
inductive Phase where
  | reset | presence | skipRom | convertTemperature | pollConversion
  | readScratchpad | parseScratchpad | done | error
deriving DecidableEq, Repr

/-- The three logical timers (42_bit_timer.md R99): 0 reset/presence, 1 write slot, 2 read slot. -/
inductive TimerId where
  | rst | wr | rd
deriving DecidableEq, Repr

/-- One constructor per row of spec/opcode_table.json. -/
inductive Instr where
  /-- INIT, word 0x01 (R116). -/
  | init
  /-- POLL, word 0x02 (R72). -/
  | poll
  /-- EDGE.F, word 0x10 (R111). -/
  | edgeF
  /-- EDGE.R, word 0x11 (R112). -/
  | edgeR
  /-- TCAP.RST, words 0x20 and 0x28; `level` is bit 3 (R103). -/
  | tcapRst (level : Bool)
  /-- TCAP.WR, words 0x21 and 0x29 (R103). -/
  | tcapWr (level : Bool)
  /-- TCAP.RD, words 0x22 and 0x2A (R103). -/
  | tcapRd (level : Bool)
  /-- TEND.RST, word 0x30 (R104). -/
  | tendRst
  /-- TEND.WR, word 0x31 (R104). -/
  | tendWr
  /-- TEND.RD, word 0x32 (R104). -/
  | tendRd
  /-- POLL.RESET, word 0x02 with STATE 0 (R65, R78). -/
  | pollReset
  /-- POLL.PRESENCE, word 0x02 with STATE 1 (R79). -/
  | pollPresence
  /-- POLL.SKIPROM, word 0x02 with STATE 2 (R80). -/
  | pollSkiprom
  /-- POLL.CONVERT, word 0x02 with STATE 3 (R81). -/
  | pollConvert
  /-- POLL.POLLCONV, word 0x02 with STATE 4 (R82). -/
  | pollPollconv
  /-- POLL.READSP, word 0x02 with STATE 5 (R83). -/
  | pollReadsp
  /-- POLL.PARSE, word 0x02 with STATE 6 (R84). -/
  | pollParse
  /-- POLL.DONE, word 0x02 with STATE 7 (R85). -/
  | pollDone
  /-- POLL.ERROR, word 0x02 with STATE 8 (R86). -/
  | pollError
  /-- SKIP_ROM, command byte 0xCC (R66, R80). -/
  | skipRom
  /-- CONVERT_T, command byte 0x44 (R66, R81). -/
  | convertT
  /-- READ_SCRATCHPAD, command byte 0xBE (R66, R83). -/
  | readScratchpad
  /-- MEMREAD at `off` from SWPE_BASE, `width` bytes (R117). -/
  | memRead (off : BitVec 32) (width : Nat)
  /-- MEMWRITE of `value` at `off` from SWPE_BASE, `width` bytes (R118). -/
  | memWrite (off : BitVec 32) (width : Nat) (value : Word)
deriving DecidableEq, Repr

/-- The two execution contexts (60_exceptions.md R138). -/
inductive Context where
  | poll | isr
deriving DecidableEq, Repr

/-- A step is in ISR context exactly when its stimulus has CLASS 1, 2 or 3 (R138). -/
def Instr.context : Instr → Context
  | .edgeF | .edgeR | .tcapRst _ | .tcapWr _ | .tcapRd _ | .tendRst | .tendWr | .tendRd => .isr
  | .init | .poll | .pollReset | .pollPresence | .pollSkiprom | .pollConvert | .pollPollconv
  | .pollReadsp | .pollParse | .pollDone | .pollError | .skipRom | .convertT | .readScratchpad
  | .memRead _ _ | .memWrite _ _ _ => .poll

end Sys2Proof
end

