-- ==== Sys2Proof/WellFormed.lean ====
section
/-! DEFINITION. Well-formed instructions. Only a register access has operands that can be wrong: its width, its
alignment and its range (20_memory.md R50). An access that is not well-formed still has a meaning, the recorded
fault BAD_ACCESS. -/

namespace Sys2Proof

/-- R50: a 32-bit access. -/
def accessWidthOk (width : Nat) : Bool := decide (width = 4)

/-- R50: at an offset that is a multiple of 4. -/
def accessAligned (off : BitVec 32) : Bool := decide (off.toNat % 4 = 0)

/-- R50: within `SWPE_BASE + 0x00` to `SWPE_BASE + 0x3C`, the 64-byte view. -/
def accessInView (off : BitVec 32) : Bool := decide (off.toNat < 64)

/-- A register access that R50 does not refuse. -/
def accessLegal (off : BitVec 32) (width : Nat) : Bool :=
  accessWidthOk width && accessAligned off && accessInView off

/-- Every stimulus, arm and command byte is well-formed; a register access is when it is legal. -/
def Instr.wf : Instr → Bool
  | .memRead off width => accessLegal off width
  | .memWrite off width _ => accessLegal off width
  | .init | .poll | .edgeF | .edgeR | .tcapRst _ | .tcapWr _ | .tcapRd _ | .tendRst | .tendWr | .tendRd
  | .pollReset | .pollPresence | .pollSkiprom | .pollConvert | .pollPollconv | .pollReadsp | .pollParse
  | .pollDone | .pollError | .skipRom | .convertT | .readScratchpad => true

end Sys2Proof
end

