-- ==== Sys2Proof/Decode.lean ====
section
/-! DEFINITION. Decoding and encoding (30_encoding.md R61 to R69). An instruction of the table is spelled in one of
four ways, the constructors of `Code`: a stimulus word; the POLL word with the STATE that selects an arm (R65); a
command byte (R66); a host register access given by its offset from SWPE_BASE (R38, R50). Decoding is total: it
gives an instruction, or refuses with the name of what is reserved (R68). -/

namespace Sys2Proof

/-- The spelling of one instruction. -/
inductive Code where
  /-- A stimulus word (R62). -/
  | stim (w : Byte)
  /-- A POLL word and the value of `S.txn` that selects the arm (R65). -/
  | arm (w : Byte) (state : BitVec 4)
  /-- A single-wire command byte (R63). -/
  | cmd (c : Byte)
  /-- A host read of `width` bytes at `off` from SWPE_BASE. -/
  | read (off : BitVec 32) (width : Nat)
  /-- A host write of `width` bytes at `off` from SWPE_BASE. -/
  | write (off : BitVec 32) (width : Nat) (value : Word)
deriving DecidableEq, Repr

/-- Why a word spells nothing (R62, R64, R66, R68). -/
inductive Reserved where
  /-- CLASS 4 to 15. -/
  | stimulusClass
  /-- CLASS 0 with an ARG other than 1 (INIT) and 2 (POLL). -/
  | hostArg
  /-- CLASS 1 with ARG bit 3, 2 or 1 set. -/
  | edgeArg
  /-- CLASS 2 with ARG bit 2 set. -/
  | captureArg
  /-- CLASS 3 with ARG bit 3 or 2 set. -/
  | terminalArg
  /-- CLASS 2 or 3 with TID 3. -/
  | timerId
  /-- STATE 9 to 15, or a word that is not POLL where an arm is selected. -/
  | pollState
  /-- A command byte other than the three of R66. -/
  | commandByte
deriving DecidableEq, Repr

/-- ROM-skip (R66). -/
def skipRomByte : Byte := 0xCC#8

/-- Convert temperature (R66). -/
def convertTByte : Byte := 0x44#8

/-- Read scratchpad (R66). -/
def readScratchpadByte : Byte := 0xBE#8

/-- The word POLL (R64). -/
def pollWord : Byte := 0x02#8

/-- The encoding of a phase in the transaction register (10_state.md R14). -/
def Phase.code : Phase → BitVec 4
  | .reset => 0
  | .presence => 1
  | .skipRom => 2
  | .convertTemperature => 3
  | .pollConversion => 4
  | .readScratchpad => 5
  | .parseScratchpad => 6
  | .done => 7
  | .error => 8

/-- The phase a value of the transaction register names; none for 9 to 15 (R14, R15). -/
def Phase.ofCode (c : BitVec 4) : Option Phase :=
  match c.toNat with
  | 0 => some .reset
  | 1 => some .presence
  | 2 => some .skipRom
  | 3 => some .convertTemperature
  | 4 => some .pollConversion
  | 5 => some .readScratchpad
  | 6 => some .parseScratchpad
  | 7 => some .done
  | 8 => some .error
  | _ => none

/-- The arm a phase selects (R65). -/
def Phase.arm : Phase → Instr
  | .reset => .pollReset
  | .presence => .pollPresence
  | .skipRom => .pollSkiprom
  | .convertTemperature => .pollConvert
  | .pollConversion => .pollPollconv
  | .readScratchpad => .pollReadsp
  | .parseScratchpad => .pollParse
  | .done => .pollDone
  | .error => .pollError

/-- The timer a TID field names; none for 3 (R62). -/
def TimerId.ofCode (c : BitVec 2) : Option TimerId :=
  match c.toNat with
  | 0 => some .rst
  | 1 => some .wr
  | 2 => some .rd
  | _ => none

/-- The TID of a timer (R62, R99). -/
def TimerId.code : TimerId → BitVec 2
  | .rst => 0
  | .wr => 1
  | .rd => 2

/-- The capture stimulus of a timer (R64). -/
def TimerId.tcap (level : Bool) : TimerId → Instr
  | .rst => .tcapRst level
  | .wr => .tcapWr level
  | .rd => .tcapRd level

/-- The terminal stimulus of a timer (R64). -/
def TimerId.tend : TimerId → Instr
  | .rst => .tendRst
  | .wr => .tendWr
  | .rd => .tendRd

/-- CLASS, bits 7:4 of a stimulus word (R62). -/
def stimClass (w : Byte) : BitVec 4 := w.extractLsb' 4 4

/-- ARG, bits 3:0 of a stimulus word (R62). -/
def stimArg (w : Byte) : BitVec 4 := w.extractLsb' 0 4

/-- CLASS 0, host: ARG 1 INIT, 2 POLL, every other ARG reserved (R62). -/
def decodeHost (arg : BitVec 4) : Except Reserved Instr :=
  match arg.toNat with
  | 1 => .ok .init
  | 2 => .ok .poll
  | _ => .error .hostArg

/-- CLASS 1, edge: bits 3, 2 and 1 must be 0; bit 0 is KIND, 0 FALL and 1 RISE (R62). -/
def decodeEdge (arg : BitVec 4) : Except Reserved Instr :=
  if arg[3] || arg[2] || arg[1] then .error .edgeArg
  else .ok (if arg[0] then .edgeR else .edgeF)

/-- CLASS 2, capture: bit 3 is LEVEL, bit 2 must be 0, bits 1:0 are TID (R62). -/
def decodeCapture (arg : BitVec 4) : Except Reserved Instr :=
  if arg[2] then .error .captureArg
  else match TimerId.ofCode (arg.extractLsb' 0 2) with
    | some t => .ok (t.tcap arg[3])
    | none => .error .timerId

/-- CLASS 3, terminal: bits 3 and 2 must be 0, bits 1:0 are TID (R62). -/
def decodeTerminal (arg : BitVec 4) : Except Reserved Instr :=
  if arg[3] || arg[2] then .error .terminalArg
  else match TimerId.ofCode (arg.extractLsb' 0 2) with
    | some t => .ok t.tend
    | none => .error .timerId

/-- A stimulus word by its CLASS (R62). -/
def decodeStim (w : Byte) : Except Reserved Instr :=
  match (stimClass w).toNat with
  | 0 => decodeHost (stimArg w)
  | 1 => decodeEdge (stimArg w)
  | 2 => decodeCapture (stimArg w)
  | 3 => decodeTerminal (stimArg w)
  | _ => .error .stimulusClass

/-- The second decoding of a POLL word, by STATE (R65). -/
def decodeArm (w : Byte) (state : BitVec 4) : Except Reserved Instr :=
  if w = pollWord then
    match Phase.ofCode state with
    | some p => .ok p.arm
    | none => .error .pollState
  else .error .pollState

/-- The three command bytes (R66). -/
def decodeCmd (c : Byte) : Except Reserved Instr :=
  if c = skipRomByte then .ok .skipRom
  else if c = convertTByte then .ok .convertT
  else if c = readScratchpadByte then .ok .readScratchpad
  else .error .commandByte

/-- Every code spells an instruction or is refused by name. A register access always spells one: where R50
refuses it, the instruction is not well-formed and its meaning records BAD_ACCESS. -/
def decode : Code → Except Reserved Instr
  | .stim w => decodeStim w
  | .arm w state => decodeArm w state
  | .cmd c => decodeCmd c
  | .read off width => .ok (.memRead off width)
  | .write off width value => .ok (.memWrite off width value)

/-- The rows of R64, in order: the word (with LEVEL 0) and the mask of the bits that are fixed. -/
def stimRows : List (Byte × Byte) :=
  [(0x01, 0xFF), (0x02, 0xFF), (0x10, 0xFF), (0x11, 0xFF), (0x20, 0xF7), (0x21, 0xF7), (0x22, 0xF7),
   (0x30, 0xFF), (0x31, 0xFF), (0x32, 0xFF)]

/-- How many rows of R64 a word matches. -/
def stimRowsMatched (w : Byte) : Nat := (stimRows.filter fun r => w &&& r.2 == r.1).length

/-- The word of a capture stimulus: `0x20 | t | (L << 3)` (R103). -/
def captureWord (t : TimerId) (level : Bool) : Byte :=
  0x20#8 ||| t.code.setWidth 8 ||| ((BitVec.ofBool level).setWidth 8 <<< 3)

/-- The word of a terminal stimulus: `0x30 | t` (R104). -/
def terminalWord (t : TimerId) : Byte := 0x30#8 ||| t.code.setWidth 8

/-- The code of an instruction, from the tables of R64, R65, R66 and the register accesses. -/
def encode : Instr → Code
  | .init => .stim 0x01
  | .poll => .stim pollWord
  | .edgeF => .stim 0x10
  | .edgeR => .stim 0x11
  | .tcapRst level => .stim (captureWord .rst level)
  | .tcapWr level => .stim (captureWord .wr level)
  | .tcapRd level => .stim (captureWord .rd level)
  | .tendRst => .stim (terminalWord .rst)
  | .tendWr => .stim (terminalWord .wr)
  | .tendRd => .stim (terminalWord .rd)
  | .pollReset => .arm pollWord 0
  | .pollPresence => .arm pollWord 1
  | .pollSkiprom => .arm pollWord 2
  | .pollConvert => .arm pollWord 3
  | .pollPollconv => .arm pollWord 4
  | .pollReadsp => .arm pollWord 5
  | .pollParse => .arm pollWord 6
  | .pollDone => .arm pollWord 7
  | .pollError => .arm pollWord 8
  | .skipRom => .cmd skipRomByte
  | .convertT => .cmd convertTByte
  | .readScratchpad => .cmd readScratchpadByte
  | .memRead off width => .read off width
  | .memWrite off width value => .write off width value

/-- The stimulus words of a trace, decoded in order; the first reserved word is refused by name and position
(R68). -/
def decodeTrace (pos : Nat) : List Byte → Except (Nat × Byte × Reserved) (List Instr)
  | [] => .ok []
  | w :: ws =>
    match decodeStim w with
    | .error why => .error (pos, w, why)
    | .ok i =>
      match decodeTrace (pos + 1) ws with
      | .error e => .error e
      | .ok is => .ok (i :: is)

/-- The host's question: the instruction of `nbits` bits `w`, numbered as spec/opcode_table.json numbers them.
8 bits: a stimulus word, or a command byte where the stimulus word is reserved (no word is both). 32 bits: a register
access of width 4 at that offset. The table gives MEMREAD and MEMWRITE the same match and mask, and gives POLL and
its nine arms the same word: this answers MEMREAD and POLL (log 13). -/
def decodeTableWord (nbits w : Nat) : Option Instr :=
  if nbits = 8 then
    match decode (.stim (BitVec.ofNat 8 w)) with
    | .ok i => some i
    | .error _ =>
      match decode (.cmd (BitVec.ofNat 8 w)) with
      | .ok i => some i
      | .error _ => none
  else if nbits = 32 then
    match decode (.read (BitVec.ofNat 32 w) 4) with
    | .ok i => some i
    | .error _ => none
  else none

end Sys2Proof
end

