-- ==== Sys2Proof/Machine/State.lean ====
section
/-! DEFINITION. The state of the block, exactly the fields of 10_state.md R13 to R32 and S.fault of
60_exceptions.md R128, with the configuration (R7) and three fields of the model's own: the trace of inputs not yet
delivered, their position, and the value last read by the host. The state at power-on reset (R36, R144). -/

namespace Sys2Proof.Machine

/-- The line driver's output (10_state.md R30). The reserved value 3 does not exist (U15). -/
inductive Drive where
  | rel | low | high
deriving DecidableEq, Repr

/-- `S.drv` as the two bits of R30. -/
def Drive.code : Drive → BitVec 2
  | .rel => 0
  | .low => 1
  | .high => 2

/-- The cause of the last Error entry (60_exceptions.md R130). The reserved value 3 does not exist (U15). -/
inductive ErrCode where
  | none | presenceTimeout | stall
deriving DecidableEq, Repr

/-- `S.errcode` as the two bits of R130. -/
def ErrCode.code : ErrCode → BitVec 2
  | .none => 0
  | .presenceTimeout => 1
  | .stall => 2

/-- The reasons of R128: the model faults of the spec, recorded in `S.fault`. -/
inductive FaultReason where
  /-- POLL with `S.txn` from 9 to 15 (R15). -/
  | illegalState
  /-- `arm` of an armed timer (R100). -/
  | doubleArm
  /-- A register access that R50 refuses. -/
  | badAccess
deriving DecidableEq, Repr

/-- `S.fault`, a set of reasons (R128): a reason is in the set when its field is true. -/
structure FaultSet where
  illegalState : Bool
  doubleArm : Bool
  badAccess : Bool
deriving DecidableEq, Repr

/-- The empty set, "none" (R128). -/
def FaultSet.empty : FaultSet := ⟨false, false, false⟩

/-- The set with one more reason. -/
def FaultSet.insert (f : FaultSet) : FaultReason → FaultSet
  | .illegalState => { f with illegalState := true }
  | .doubleArm => { f with doubleArm := true }
  | .badAccess => { f with badAccess := true }

/-- One logical timer (R31). -/
structure Timer where
  armed : Bool
  capPend : Bool
  /-- Configuration of the last arm, in microseconds; read by no rule. -/
  period : Nat
  /-- Capture point of the last arm, in microseconds, or none; read by no rule. -/
  cmp : Option Nat
deriving DecidableEq, Repr

/-- The three timers `S.tmr[0..2]` (R31). -/
structure Timers where
  rst : Timer
  wr : Timer
  rd : Timer
deriving DecidableEq, Repr

/-- `S.tmr[t]`. -/
def Timers.get (m : Timers) : TimerId → Timer
  | .rst => m.rst
  | .wr => m.wr
  | .rd => m.rd

/-- `S.tmr[t] <- v`. -/
def Timers.set (m : Timers) (v : Timer) : TimerId → Timers
  | .rst => { m with rst := v }
  | .wr => { m with wr := v }
  | .rd => { m with rd := v }

/-- The ring buffer (R29). -/
structure Ring where
  /-- `S.buf[0..CAP-1]`. -/
  buf : List Bool
  /-- Producer cursor. -/
  head : BitVec 5
  /-- Consumer cursor. -/
  tail : BitVec 5
  /-- Number of unconsumed entries. -/
  count : BitVec 6
deriving DecidableEq, Repr

/-- The records of the bus log (R32). -/
inductive LogRec where
  /-- `RST_LOW`: a reset pulse started. -/
  | rstLow
  /-- `PRES_WIN`: a presence window opened. -/
  | presWin
  /-- `WBIT(b)`: a write slot of bit `b` started. -/
  | wbit (b : Bool)
  /-- `SETTLE`: the convert settle wait started. -/
  | settle
  /-- `RSLOT`: a read slot started. -/
  | rslot
  /-- `SAMPLE(b)`: a capture sampled `b`. -/
  | sample (b : Bool)
  /-- `REPORT_DONE(v)`. -/
  | reportDone (v : Word)
  /-- `REPORT_ERR(c)`. -/
  | reportErr (c : ErrCode)
deriving DecidableEq, Repr

/-- What R36 leaves unspecified at power-on: the ring storage (bit `i` is entry `i`) and the timers' configuration. -/
structure Unspecified where
  buf : BitVec 32
  rst : Nat × Option Nat
  wr : Nat × Option Nat
  rd : Nat × Option Nat
deriving DecidableEq, Repr

/-- One input of the block, from outside it (44_host_interface.md R115). -/
inductive Input where
  /-- A stimulus word (R62). -/
  | word (w : Byte)
  /-- A host read of `width` bytes at an address (R117). -/
  | hostRead (addr : BitVec 32) (width : Nat)
  /-- A host write of `width` bytes at an address (R118). -/
  | hostWrite (addr : BitVec 32) (width : Nat) (value : Word)
  /-- Power-on reset, "one input, not a stimulus word" (R144), with what R36 leaves unspecified. -/
  | powerOn (u : Unspecified)
deriving DecidableEq, Repr

/-- The whole state. Each field of the block carries the name the spec gives it. -/
structure State where
  /-- The parameters of R7 the block was built with. -/
  cfg : Config
  /-- `S.txn`, the protocol phase (R14). -/
  txn : BitVec 4
  /-- `S.busy` (R17). -/
  busy : Bool
  /-- `S.tx_bit` (R18). -/
  txBit : BitVec 4
  /-- `S.settle` (R19). -/
  settle : Bool
  /-- `S.rx_bit` (R20). -/
  rxBit : BitVec 5
  /-- `S.rd_pend` (R21). -/
  rdPend : Bool
  /-- `S.acc` (R22). -/
  acc : BitVec 16
  /-- `S.retry` (R23). -/
  retry : BitVec 8
  /-- `S.pres_seen` (R24). -/
  presSeen : Bool
  /-- `S.pwin` (R24). -/
  pwin : Bool
  /-- `S.conv_done` (R25). -/
  convDone : Bool
  /-- `S.done` (R26). -/
  done : Bool
  /-- `S.err` (R26). -/
  err : Bool
  /-- `S.errcode` (R26, R130). -/
  errcode : ErrCode
  /-- `S.undr` (R26). -/
  undr : Bool
  /-- `S.ovr` (R26). -/
  ovr : Bool
  /-- `S.wdt` (R27). -/
  wdt : BitVec 16
  /-- `S.temp` (R28). -/
  temp : Word
  /-- `S.buf`, `S.head`, `S.tail`, `S.count` (R29). -/
  ring : Ring
  /-- `S.drv` (R30). -/
  drv : Drive
  /-- `S.tmr[0..2]` (R31). -/
  tmr : Timers
  /-- `S.log`, the bus log; the spec's model-only state (R32). -/
  log : List LogRec
  /-- `S.fault`; the spec's model-only state (R128). -/
  fault : FaultSet
  /-- The model's own: the inputs not yet delivered, the next one first (log 5). -/
  trace : List Input
  /-- The model's own: how many inputs have been taken (log 5). -/
  pos : Nat
  /-- The model's own: the value the last MEMREAD gave the host (log 14). -/
  busData : Option Word
deriving DecidableEq, Repr

/-- Why the machine stops with no next state. -/
inductive Fault where
  /-- Raised by every instruction and register access in a state whose `S.fault` is not empty: "While `S.fault` is
  not empty, no stimulus has a step" (R128, log 8). Safe: the block has no step there either. -/
  | quiescent
  /-- Raised by TCAP and TEND when the stimulus is not enabled: it "has no step" (R101, U19, log 10). Safe for a
  platform that keeps its duty (R120); unsafe for one that delivers events of unarmed channels (D25). -/
  | notEnabled
deriving DecidableEq, Repr

/-- Why the machine refuses to take a step. -/
inductive Refusal where
  /-- Raised by an arm of `exec` with no meaning. No arm of this model raises it. Safe. -/
  | notModelled (mnemonic : String)
  /-- Raised by `step`: the decoder refuses a reserved stimulus word by name and position (R68). Safe: no port
  delivers such a word. -/
  | reservedWord (w : Byte) (why : Reserved) (position : Nat)
  /-- Raised by `step` when no input is left: the block steps only on an input (R6, log 6). Safe. -/
  | noStimulus
  /-- Raised by a POLL arm in a state whose `S.txn` does not select it (R65, log 11). Safe: the word POLL is then
  another arm. -/
  | armNotSelected
  /-- Raised by a command byte in a state in which the engine does not start a slot of it (R66, R75, log 12). Safe:
  the engine does not transmit it then. -/
  | commandNotSent
deriving DecidableEq, Repr

/-- A timer after power-on reset: disarmed, its configuration unspecified (R36). -/
def Timer.powerOn (u : Nat × Option Nat) : Timer :=
  { armed := false, capPend := false, period := u.1, cmp := u.2 }

/-- The ring after power-on reset: cursors 0, `CAP` entries of unspecified contents (R36). -/
def Ring.powerOn (cap : Nat) (u : BitVec 32) : Ring :=
  { buf := (List.range cap).map fun i => u.getLsbD i, head := 0, tail := 0, count := 0 }

/-- The state after power-on reset (R36, R144) of a block built with `cfg`, for any value of what R36 leaves
unspecified. No input is pending. -/
def State.powerOn (cfg : Config) (u : Unspecified) : State where
  cfg := cfg
  txn := 0
  busy := false
  txBit := 0
  settle := false
  rxBit := 0
  rdPend := false
  acc := 0
  retry := cfg.retryN
  presSeen := false
  pwin := false
  convDone := false
  done := false
  err := false
  errcode := .none
  undr := false
  ovr := false
  wdt := 0
  temp := 0
  ring := Ring.powerOn cfg.cap u.buf
  drv := .rel
  tmr := { rst := Timer.powerOn u.rst, wr := Timer.powerOn u.wr, rd := Timer.powerOn u.rd }
  log := []
  fault := FaultSet.empty
  trace := []
  pos := 0
  busData := none

/-- DESIGN CHOICE (log 3, log 4, unsafe): what `State.reset` holds where R36 leaves a value unspecified. -/
def Unspecified.zero : Unspecified := { buf := 0, rst := (0, none), wr := (0, none), rd := (0, none) }

/-- The machine right after reset: `State.powerOn` at the spec's default parameters (log 1, log 2). -/
def State.reset : State := State.powerOn Config.default Unspecified.zero

end Sys2Proof.Machine
end

