-- ==== Sys2Proof/Machine/Operands.lean ====
section
/-! DEFINITION. Operand assembly (30_encoding.md R67): the transmit bit, the received bit, the accumulation of a
received bit, and the decode of the accumulator (45_decoder.md R123). -/

namespace Sys2Proof.Machine

/-- The transmit bit `C[S.tx_bit]`, LSB first (R52, R67). -/
def transmitBit (c : Byte) (txBit : BitVec 4) : Bool := c.getLsbD txBit.toNat

/-- `read()`: the bus level at a capture, 0 while the block drives LOW, else the environment's LEVEL (R109). -/
def receivedBit (drv : Drive) (level : Bool) : Bool :=
  match drv with
  | .low => false
  | .rel => level
  | .high => level

/-- `acc OR (zext_16(b) << i)` (R67, R84). -/
def accumulate (acc : BitVec 16) (b : Bool) (i : BitVec 5) : BitVec 16 :=
  acc ||| ((BitVec.ofBool b).setWidth 16 <<< i.toNat)

/-- `DECODE(a)`: the temperature in units of 1/16 degree C (R123). -/
def decodeTemp (signed : Bool) (a : BitVec 16) : Word :=
  if signed then a.signExtend 32 else a.setWidth 32

end Sys2Proof.Machine
end

