-- ==== Sys2Proof/Machine/Ops.lean ====
section
/-! DEFINITION. The named operations over the state: the bus log, the line driver, the timers, the ring, the Error
entry, and the recording of a model fault. Every meaning is written over these. -/

namespace Sys2Proof.Machine

/-! ### Log and line driver -/

/-- `log(rec)`: append to the bus log (10_state.md R32). -/
def emit (r : LogRec) (s : State) : State := { s with log := s.log ++ [r] }

/-- `line_drive(LOW | HIGH)`, `true` for HIGH (43_line_driver.md R107). -/
def lineDrive (high : Bool) (s : State) : State := { s with drv := if high then .high else .low }

/-- `line_release()` (R108). -/
def lineRelease (s : State) : State := { s with drv := .rel }

/-! ### Timers -/

/-- `arm(t, period, cmp)`: start timer `t` one-shot, or raise DOUBLE_ARM if it is armed (42_bit_timer.md R100). -/
def arm (t : TimerId) (period : Nat) (cmp : Option Nat) (s : State) : Except FaultReason State :=
  if (s.tmr.get t).armed then .error .doubleArm
  else .ok { s with
    tmr := s.tmr.set { armed := true, capPend := cmp.isSome, period := period, cmp := cmp } t }

/-! ### Ring buffer (41_ring_buffer.md) -/

/-- Cursor advance `(x + 1) mod CAP` (R87, R97). -/
def advance (cap : Nat) (x : BitVec 5) : BitVec 5 := BitVec.ofNat 5 ((x.toNat + 1) % cap)

/-- `S.count = CAP`. -/
def Ring.isFull (cap : Nat) (r : Ring) : Bool := decide (r.count.toNat = cap)

/-- The ring's part of `push(b)`: a push into a full ring drops the oldest entry (R93). -/
def Ring.push (cap : Nat) (b : Bool) (r : Ring) : Ring :=
  { buf := r.buf.set r.head.toNat b
    head := advance cap r.head
    tail := if r.isFull cap then advance cap r.tail else r.tail
    count := if r.isFull cap then r.count else r.count + 1 }

/-- The ring's part of a `pop()` that finds an entry (R94). -/
def Ring.dropOldest (cap : Nat) (r : Ring) : Ring :=
  { r with tail := advance cap r.tail, count := r.count - 1 }

/-- The entry at the tail, `S.buf[S.tail]`. An index past the storage, which no reachable state forms, reads 0
(log 20). -/
def Ring.oldest (r : Ring) : Bool := r.buf.getD r.tail.toNat false

/-- `push(b)` (R93). -/
def push (b : Bool) (s : State) : State :=
  { s with ring := s.ring.push s.cfg.cap b, ovr := s.ovr || s.ring.isFull s.cfg.cap }

/-- `pop()`: the oldest entry, or none with the sticky underrun flag set (R94). -/
def pop (s : State) : Option Bool × State :=
  if s.ring.count = 0 then (none, { s with undr := true })
  else (some s.ring.oldest, { s with ring := s.ring.dropOldest s.cfg.cap })

/-- `flush()`: discard every unconsumed entry (R95). -/
def flush (s : State) : State := { s with ring := { s.ring with tail := s.ring.head, count := 0 } }

/-- `reset_cursors()`; the storage is not cleared (R96). -/
def resetCursors (s : State) : State :=
  { s with ring := { s.ring with head := 0, tail := 0, count := 0 } }

/-! ### Errors and faults (60_exceptions.md) -/

/-- `ERR(code)`, the Error entry: release the line, enter Error, record the cause; nothing else is saved (R131). -/
def errEntry (code : ErrCode) (s : State) : State :=
  { lineRelease s with txn := Phase.error.code, errcode := code }

/-- INIT, the only way out of Error or Done (R132), and the one thing beside power-on reset that clears the status
bits: the fields R116 lists, and no other. -/
def initEntry (s : State) : State :=
  { s with
    txn := Phase.reset.code
    txBit := 0
    settle := false
    rxBit := 0
    rdPend := false
    acc := 0
    presSeen := false
    convDone := false
    done := false
    err := false
    errcode := .none
    undr := false
    ovr := false
    wdt := 0 }

/-- `raise Fault(reason)`: record the reason, change nothing else (R128). -/
def State.raise (r : FaultReason) (s : State) : State := { s with fault := s.fault.insert r }

/-- One step of the block. In a faulted state nothing has a step (R128). An action that raises a fault is void as a
whole: the state before it, with the reason recorded (R128, log 9). -/
def perform (action : State → Except FaultReason State) (s : State) : Host.Outcome State Fault Refusal :=
  if s.fault = FaultSet.empty then
    match action s with
    | .ok t => .next t
    | .error r => .next (s.raise r)
  else .fault .quiescent

/-- A step that the block takes only when `ok` holds of the state; else the machine stops as `stop` says, or is
quiescent if it has faulted. -/
def performWhen (ok : Bool) (stop : Host.Outcome State Fault Refusal)
    (action : State → Except FaultReason State) (s : State) : Host.Outcome State Fault Refusal :=
  if s.fault = FaultSet.empty then (if ok then perform action s else stop) else .fault .quiescent

end Sys2Proof.Machine
end

