-- ==== Sys2Proof/Machine/Flags.lean ====
section
/-! DEFINITION. The flag computations: the watchdog count, the flags a POLL's result leaves, the enabling
conditions of the timer stimuli, and the interrupt level. -/

namespace Sys2Proof.Machine

/-- What an arm returns to POLL: NOOP only on a ring underrun (40_engine_fsm.md R72). -/
inductive Progress where
  | progress | noop
deriving DecidableEq, Repr

/-- `WDT_TICK()`: count a poll that could not act, and enter Error at the limit (60_exceptions.md R133). The sum is
exact (R9), so it is compared as a number (log 16). -/
def wdtTick (s : State) : State :=
  if s.cfg.wdtLimit = 0 then s
  else if s.cfg.wdtLimit.toNat ≤ s.wdt.toNat + 1 then errEntry .stall { s with wdt := 0 }
  else { s with wdt := s.wdt + 1 }

/-- What POLL does after an arm of a line state: NOOP ticks the watchdog, progress clears it (R72). -/
def afterArm : Progress × State → State
  | (.noop, t) => wdtTick t
  | (.progress, t) => { t with wdt := 0 }

/-- POLL in a line state: the busy gate (R73), else the arm (R72). -/
def lineStep (armOf : State → Except FaultReason (Progress × State)) (s : State) : Except FaultReason State :=
  if s.busy then .ok (wdtTick s)
  else match armOf s with
    | .ok r => .ok (afterArm r)
    | .error e => .error e

/-- A capture stimulus is enabled only while its timer is armed with a capture pending (42_bit_timer.md R101). -/
def captureEnabled (t : TimerId) (s : State) : Bool := (s.tmr.get t).armed && (s.tmr.get t).capPend

/-- A terminal stimulus is enabled only while its timer is armed with no capture pending (R101). -/
def terminalEnabled (t : TimerId) (s : State) : Bool := (s.tmr.get t).armed && !(s.tmr.get t).capPend

/-- `irq_out = S.done OR S.err` (60_exceptions.md R135). -/
def irqOut (s : State) : Bool := s.done || s.err

end Sys2Proof.Machine
end

