-- ==== Sys2Proof/Machine/Slots.lean ====
section
/-! DEFINITION. The shared slot procedures of 40_engine_fsm.md: WRITE_SLOT (R75), ISSUE_READ (R76), CONSUME (R77).
Their primitives run in the order the spec writes them. -/

namespace Sys2Proof.Machine

/-- `WRITE_SLOT(C)`: start the write slot of bit `S.tx_bit` of command byte `C` (R75). -/
def writeSlot (c : Byte) (s : State) : Except FaultReason State :=
  let b := transmitBit c s.txBit
  let s := lineDrive b (lineDrive false s)
  match arm .wr s.cfg.tWriteSlot none { s with busy := true } with
  | .error e => .error e
  | .ok s => .ok (emit (.wbit b) { s with txBit := s.txBit + 1 })

/-- `ISSUE_READ()`: discard stale samples and start a read slot (R76). -/
def issueRead (s : State) : Except FaultReason State :=
  let s := lineRelease (lineDrive false (flush s))
  match arm .rd s.cfg.tReadSlot (some s.cfg.tReadSample) { s with rdPend := true, busy := true } with
  | .error e => .error e
  | .ok s => .ok (emit .rslot s)

/-- `CONSUME()`: the sample of the outstanding read slot, or none on an underrun (R77). -/
def consume (s : State) : Option Bool × State :=
  match pop s with
  | (none, t) => (none, t)
  | (some b, t) => (some b, { t with rdPend := false })

end Sys2Proof.Machine
end

