-- ==== Sys2Proof/Machine/Poll.lean ====
section
/-! DEFINITION. The nine state arms of 40_engine_fsm.md (R78 to R86), the stimulus POLL that dispatches on
`S.txn` (R72), and the arms as instructions: the word POLL in the state that selects the arm (R65). -/

namespace Sys2Proof.Machine

/-- `ARM_RESET()` (R78). -/
def armReset (s : State) : Except FaultReason (Progress × State) :=
  let s := lineDrive false { s with retry := s.cfg.retryN, presSeen := false, pwin := false }
  match arm .rst s.cfg.tReset none { s with busy := true } with
  | .error e => .error e
  | .ok s => .ok (.progress, { emit .rstLow s with txn := Phase.presence.code })

/-- The Presence arm's attempt: one window, the retry counter tested before it is decremented (R79). -/
def openWindow (s : State) : Except FaultReason State :=
  let s := lineRelease { s with retry := s.retry - 1 }
  match arm .rst s.cfg.tPresWin none { s with pwin := true, busy := true } with
  | .error e => .error e
  | .ok s => .ok (emit .presWin s)

/-- `ARM_PRESENCE()` (R79). -/
def armPresence (s : State) : Except FaultReason (Progress × State) :=
  if s.presSeen then
    .ok (.progress, { s with presSeen := false, txBit := 0, txn := Phase.skipRom.code })
  else if s.retry = 0 then .ok (.progress, errEntry .presenceTimeout s)
  else match openWindow s with
    | .error e => .error e
    | .ok t => .ok (.progress, t)

/-- `ARM_SKIPROM()` (R80). -/
def armSkipRom (s : State) : Except FaultReason (Progress × State) :=
  if s.txBit.toNat < 8 then
    match writeSlot skipRomByte s with
    | .error e => .error e
    | .ok t => .ok (.progress, t)
  else .ok (.progress, { s with txBit := 0, txn := Phase.convertTemperature.code })

/-- The first poll of ConvertTemperature, and only it, tests the conversion-complete flag (R81). -/
def convertSkipped (s : State) : Bool := decide (s.txBit = 0) && !s.settle && s.convDone

/-- The settle wait of ConvertTemperature: timer 0, no line activity (R81). -/
def startSettle (s : State) : Except FaultReason State :=
  match arm .rst s.cfg.tConvSettle none { s with settle := true, busy := true } with
  | .error e => .error e
  | .ok s => .ok (emit .settle s)

/-- `ARM_CONVERT()` (R81). -/
def armConvert (s : State) : Except FaultReason (Progress × State) :=
  if convertSkipped s then .ok (.progress, { s with txn := Phase.readScratchpad.code })
  else if s.txBit.toNat < 8 then
    match writeSlot convertTByte s with
    | .error e => .error e
    | .ok t => .ok (.progress, t)
  else if !s.settle then
    match startSettle s with
    | .error e => .error e
    | .ok t => .ok (.progress, t)
  else .ok (.progress,
    { s with settle := false, txBit := 0, rdPend := false, txn := Phase.pollConversion.code })

/-- `ARM_POLLCONV()` (R82). -/
def armPollConv (s : State) : Except FaultReason (Progress × State) :=
  if !s.rdPend then
    match issueRead s with
    | .error e => .error e
    | .ok t => .ok (.progress, t)
  else match consume s with
    | (none, t) => .ok (.noop, t)
    | (some true, t) =>
      .ok (.progress, { resetCursors { t with convDone := true } with txn := Phase.reset.code })
    | (some false, t) => .ok (.progress, t)

/-- `ARM_READSP()` (R83). -/
def armReadSp (s : State) : Except FaultReason (Progress × State) :=
  if s.txBit.toNat < 8 then
    match writeSlot readScratchpadByte s with
    | .error e => .error e
    | .ok t => .ok (.progress, t)
  else .ok (.progress,
    { s with txBit := 0, rxBit := 0, acc := 0, rdPend := false, txn := Phase.parseScratchpad.code })

/-- The accumulation of R84, with the parse-overflow guard: only while `S.rx_bit < 16`. -/
def accumulateBit (b : Bool) (s : State) : State :=
  if s.rxBit.toNat < regSize then
    { s with acc := accumulate s.acc b s.rxBit, rxBit := s.rxBit + 1 }
  else s

/-- The exit of ParseScratchpad: Done when `S.rx_bit` is 16 (R84). -/
def parseExit (s : State) : State :=
  if s.rxBit.toNat = regSize then { s with txn := Phase.done.code } else s

/-- `ARM_PARSE()` (R84). -/
def armParse (s : State) : Except FaultReason (Progress × State) :=
  if !s.rdPend then
    if s.rxBit.toNat < regSize then
      match issueRead s with
      | .error e => .error e
      | .ok t => .ok (.progress, t)
    else .ok (.progress, { s with txn := Phase.done.code })
  else match consume s with
    | (none, t) => .ok (.noop, t)
    | (some b, t) => .ok (.progress, parseExit (accumulateBit b t))

/-- `ARM_DONE()` (R85): the first poll decodes and reports, later polls change nothing. -/
def armDone (s : State) : State :=
  if s.done then s
  else
    let v := decodeTemp s.cfg.decodeSigned s.acc
    emit (.reportDone v) { s with temp := v, done := true, convDone := false, acc := 0, rxBit := 0 }

/-- `ARM_ERROR()` (R86): the first poll reports, later polls change nothing. -/
def armError (s : State) : State :=
  if s.err then s else emit (.reportErr s.errcode) { s with err := true }

/-- An arm as an instruction: POLL in the state that selects it (R65); no step in another state (log 11). -/
def performArm (p : Phase) (action : State → Except FaultReason State) (s : State) :
    Host.Outcome State Fault Refusal :=
  performWhen (decide (s.txn = p.code)) (.refused .armNotSelected) action s

/-- POLL.RESET (R78). -/
def execPollReset (s : State) : Host.Outcome State Fault Refusal := performArm .reset (lineStep armReset) s

/-- POLL.PRESENCE (R79). -/
def execPollPresence (s : State) : Host.Outcome State Fault Refusal :=
  performArm .presence (lineStep armPresence) s

/-- POLL.SKIPROM (R80). -/
def execPollSkiprom (s : State) : Host.Outcome State Fault Refusal :=
  performArm .skipRom (lineStep armSkipRom) s

/-- POLL.CONVERT (R81). -/
def execPollConvert (s : State) : Host.Outcome State Fault Refusal :=
  performArm .convertTemperature (lineStep armConvert) s

/-- POLL.POLLCONV (R82). -/
def execPollPollconv (s : State) : Host.Outcome State Fault Refusal :=
  performArm .pollConversion (lineStep armPollConv) s

/-- POLL.READSP (R83). -/
def execPollReadsp (s : State) : Host.Outcome State Fault Refusal :=
  performArm .readScratchpad (lineStep armReadSp) s

/-- POLL.PARSE (R84). -/
def execPollParse (s : State) : Host.Outcome State Fault Refusal :=
  performArm .parseScratchpad (lineStep armParse) s

/-- POLL.DONE (R85); not busy-gated (R73). -/
def execPollDone (s : State) : Host.Outcome State Fault Refusal :=
  performArm .done (fun s => .ok (armDone s)) s

/-- POLL.ERROR (R86); not busy-gated (R73). -/
def execPollError (s : State) : Host.Outcome State Fault Refusal :=
  performArm .error (fun s => .ok (armError s)) s

/-- POLL (R72): the arm `S.txn` selects, or ILLEGAL_STATE for 9 to 15 (R15). -/
def execPoll (s : State) : Host.Outcome State Fault Refusal :=
  match Phase.ofCode s.txn with
  | none => perform (fun _ => .error .illegalState) s
  | some .reset => execPollReset s
  | some .presence => execPollPresence s
  | some .skipRom => execPollSkiprom s
  | some .convertTemperature => execPollConvert s
  | some .pollConversion => execPollPollconv s
  | some .readScratchpad => execPollReadsp s
  | some .parseScratchpad => execPollParse s
  | some .done => execPollDone s
  | some .error => execPollError s

end Sys2Proof.Machine
end

