-- ==== Sys2Proof/Machine/Command.lean ====
section
/-! DEFINITION. The single-wire command bytes as instructions (30_encoding.md R63, R66). The engine transmits a byte
one bit a poll: one step of a command byte is the POLL that starts the write slot of its bit `S.tx_bit` (R75), in the
phase R66 gives it. In any other state the engine does not transmit it (log 12). -/

namespace Sys2Proof.Machine

/-- The states in which a POLL starts a write slot of the phase's command byte: the phase, not busy, and bits left
(R73, R75); ConvertTemperature sends nothing when the conversion is already complete (R81). -/
def transmits (p : Phase) (s : State) : Bool :=
  decide (s.txn = p.code) && !s.busy && decide (s.txBit.toNat < 8)
  && !(decide (p = .convertTemperature) && convertSkipped s)

/-- One bit of command byte `c`: WRITE_SLOT (R75) as the POLL of a line state that makes progress (R72). -/
def sendBit (c : Byte) (s : State) : Except FaultReason State :=
  match writeSlot c s with
  | .error e => .error e
  | .ok t => .ok (afterArm (.progress, t))

/-- SKIP_ROM (R66, R80). -/
def execSkipRom (s : State) : Host.Outcome State Fault Refusal :=
  performWhen (transmits .skipRom s) (.refused .commandNotSent) (sendBit skipRomByte) s

/-- CONVERT_T (R66, R81). -/
def execConvertT (s : State) : Host.Outcome State Fault Refusal :=
  performWhen (transmits .convertTemperature s) (.refused .commandNotSent) (sendBit convertTByte) s

/-- READ_SCRATCHPAD (R66, R83). -/
def execReadScratchpad (s : State) : Host.Outcome State Fault Refusal :=
  performWhen (transmits .readScratchpad s) (.refused .commandNotSent) (sendBit readScratchpadByte) s

end Sys2Proof.Machine
end

