-- ==== Sys2Proof/Machine/Event.lean ====
section
/-! DEFINITION. The stimuli of the ISR context: the edges (43_line_driver.md R110 to R112) and the timer events
(42_bit_timer.md R101 to R104). -/

namespace Sys2Proof.Machine

/-- `EDGE_FALL`: inside the presence window it sets the presence flag, else it has no effect (R111). -/
def edgeFall (s : State) : State :=
  if s.txn = Phase.presence.code ∧ s.pwin = true then { s with presSeen := true } else s

/-- EDGE.F (R111); enabled in every state (R110). -/
def execEdgeF (s : State) : Host.Outcome State Fault Refusal := perform (fun s => .ok (edgeFall s)) s

/-- EDGE.R: no effect in any state (R112). -/
def execEdgeR (s : State) : Host.Outcome State Fault Refusal := perform (fun s => .ok s) s

/-- `TCAP(t, L)`: sample the line and push the sample (R103). -/
def capture (t : TimerId) (level : Bool) (s : State) : State :=
  let s := { s with tmr := s.tmr.set { s.tmr.get t with capPend := false } t }
  let v := receivedBit s.drv level
  emit (.sample v) (push v s)

/-- `TEND(t)`: disarm the timer and clear busy; timer 0 also closes the presence window, timer 1 releases the line
(R104). -/
def terminal (t : TimerId) (s : State) : State :=
  let s := { s with tmr := s.tmr.set { s.tmr.get t with armed := false } t }
  match t with
  | .rst => { s with pwin := false, busy := false }
  | .wr => { lineRelease s with busy := false }
  | .rd => { s with busy := false }

/-- A capture stimulus that is not enabled has no step (R101, log 10). -/
def performCapture (t : TimerId) (level : Bool) (s : State) : Host.Outcome State Fault Refusal :=
  performWhen (captureEnabled t s) (.fault .notEnabled) (fun s => .ok (capture t level s)) s

/-- A terminal stimulus that is not enabled has no step (R101, log 10). -/
def performTerminal (t : TimerId) (s : State) : Host.Outcome State Fault Refusal :=
  performWhen (terminalEnabled t s) (.fault .notEnabled) (fun s => .ok (terminal t s)) s

/-- TCAP.RST (R103). -/
def execTcapRst (level : Bool) (s : State) : Host.Outcome State Fault Refusal := performCapture .rst level s

/-- TCAP.WR (R103). -/
def execTcapWr (level : Bool) (s : State) : Host.Outcome State Fault Refusal := performCapture .wr level s

/-- TCAP.RD (R103). -/
def execTcapRd (level : Bool) (s : State) : Host.Outcome State Fault Refusal := performCapture .rd level s

/-- TEND.RST (R104). -/
def execTendRst (s : State) : Host.Outcome State Fault Refusal := performTerminal .rst s

/-- TEND.WR (R104). -/
def execTendWr (s : State) : Host.Outcome State Fault Refusal := performTerminal .wr s

/-- TEND.RD (R104). -/
def execTendRd (s : State) : Host.Outcome State Fault Refusal := performTerminal .rd s

end Sys2Proof.Machine
end

