-- ==== Sys2Proof/Machine/View.lean ====
section
/-! DEFINITION. The register view (20_memory.md R38 to R49): the value of each register as a function of the state,
written field by field in the order of the spec's tables. Every bit no field covers reads 0 (R49). -/

namespace Sys2Proof.Machine

/-- A register field: `v` with its bit 0 at bit `lo` of the register. -/
def field {n : Nat} (lo : Nat) (v : BitVec n) : Word := v.setWidth 32 <<< lo

/-- A one-bit field at bit `lo`. -/
def flag (lo : Nat) (b : Bool) : Word := field lo (BitVec.ofBool b)

/-- STATUS, offset 0x04 (R40). -/
def regStatus (s : State) : Word :=
  field 0 s.txn ||| flag 4 s.busy ||| flag 5 s.convDone ||| flag 6 s.presSeen ||| flag 7 s.pwin
  ||| flag 8 s.rdPend ||| flag 9 s.settle ||| flag 10 s.done ||| flag 11 s.err
  ||| field 12 s.errcode.code ||| flag 14 s.undr ||| flag 15 s.ovr ||| flag 16 (irqOut s)

/-- TEMP, offset 0x08 (R41). -/
def regTemp (s : State) : Word := s.temp

/-- ACC, offset 0x0C (R42). -/
def regAcc (s : State) : Word := field 0 s.acc ||| field 16 s.rxBit ||| field 24 s.txBit

/-- RING, offset 0x10 (R43). -/
def regRing (s : State) : Word :=
  field 0 s.ring.head ||| field 8 s.ring.tail ||| field 16 s.ring.count

/-- RINGDATA, offset 0x14: bit `i` is `S.buf[i]` for `i < CAP`, the bits above read 0 (R44). -/
def regRingData (s : State) : Word :=
  (BitVec.ofBoolListLE (s.ring.buf.take s.cfg.cap)).setWidth 32

/-- RETRY, offset 0x18 (R45). -/
def regRetry (s : State) : Word := field 0 s.retry ||| field 16 s.wdt

/-- LINE, offset 0x1C (R46). -/
def regLine (s : State) : Word :=
  field 0 s.drv.code
  ||| flag 4 s.tmr.rst.armed ||| flag 5 s.tmr.wr.armed ||| flag 6 s.tmr.rd.armed
  ||| flag 8 s.tmr.rst.capPend ||| flag 9 s.tmr.wr.capPend ||| flag 10 s.tmr.rd.capPend

/-- CONFIG, offset 0x20 (R47). -/
def regConfig (s : State) : Word :=
  field 0 s.cfg.retryN ||| field 8 (BitVec.ofNat 6 s.cfg.cap) ||| flag 16 s.cfg.decodeSigned

/-- WDTCFG, offset 0x24 (R48). -/
def regWdtCfg (s : State) : Word := field 0 s.cfg.wdtLimit

/-- The register at a legal offset (R38). CTRL reads 0 (R39), as do the reserved offsets 0x28 to 0x3C (R49). -/
def readReg (off : BitVec 32) (s : State) : Word :=
  match off.toNat with
  | 0x04 => regStatus s
  | 0x08 => regTemp s
  | 0x0C => regAcc s
  | 0x10 => regRing s
  | 0x14 => regRingData s
  | 0x18 => regRetry s
  | 0x1C => regLine s
  | 0x20 => regConfig s
  | 0x24 => regWdtCfg s
  | _ => 0

/-- Byte `k` of a register is its bits `8k+7 : 8k` (R51). -/
def regByte (k : Nat) (v : Word) : Byte := v.extractLsb' (8 * k) 8

end Sys2Proof.Machine
end

