-- ==== Sys2Proof/Machine/HostAccess.lean ====
section
/-! DEFINITION. What the host does to the block (44_host_interface.md): INIT (R116), MEMREAD (R117) and MEMWRITE
(R118). -/

namespace Sys2Proof.Machine

/-- INIT (R116). -/
def execInit (s : State) : Host.Outcome State Fault Refusal := perform (fun s => .ok (initEntry s)) s

/-- The action of MEMREAD: the register goes to the host, and the block does not change (R53, R117). The model keeps
the value in its own field `busData` (log 14). An access R50 refuses records BAD_ACCESS. -/
def readAccess (off : BitVec 32) (width : Nat) (s : State) : Except FaultReason State :=
  if accessLegal off width then .ok { s with busData := some (readReg off s) } else .error .badAccess

/-- MEMREAD (R117). -/
def execMemRead (off : BitVec 32) (width : Nat) (s : State) : Host.Outcome State Fault Refusal :=
  perform (readAccess off width) s

/-- A write to CTRL: bit 0 is one INIT, bit 1 one POLL, in that order and with nothing between (R39, R118, log 15);
bits 31:2 are ignored. -/
def ctrlWrite (value : Word) (s : State) : Host.Outcome State Fault Refusal :=
  let s := if value.getLsbD 0 then initEntry s else s
  if value.getLsbD 1 then execPoll s else .next s

/-- A write at a legal offset: CTRL has its strobes, every other register ignores it (R49, R118). -/
def writeReg (off : BitVec 32) (value : Word) (s : State) : Host.Outcome State Fault Refusal :=
  if off = 0 then ctrlWrite value s else .next s

/-- MEMWRITE (R118). -/
def execMemWrite (off : BitVec 32) (width : Nat) (value : Word) (s : State) :
    Host.Outcome State Fault Refusal :=
  if s.fault = FaultSet.empty then
    (if accessLegal off width then writeReg off value s else .next (s.raise .badAccess))
  else .fault .quiescent

end Sys2Proof.Machine
end

