-- ==== Sys2Proof/Machine/Dispatch.lean ====
section
/-! DEFINITION. One arm per constructor of `Instr`: one row of spec/opcode_table.json each. -/

namespace Sys2Proof.Machine

def exec (i : Instr) (s : State) : Host.Outcome State Fault Refusal :=
  match i with
  | .init => Sys2Proof.Machine.execInit s
  | .poll => Sys2Proof.Machine.execPoll s
  | .edgeF => Sys2Proof.Machine.execEdgeF s
  | .edgeR => Sys2Proof.Machine.execEdgeR s
  | .tcapRst level => Sys2Proof.Machine.execTcapRst level s
  | .tcapWr level => Sys2Proof.Machine.execTcapWr level s
  | .tcapRd level => Sys2Proof.Machine.execTcapRd level s
  | .tendRst => Sys2Proof.Machine.execTendRst s
  | .tendWr => Sys2Proof.Machine.execTendWr s
  | .tendRd => Sys2Proof.Machine.execTendRd s
  | .pollReset => Sys2Proof.Machine.execPollReset s
  | .pollPresence => Sys2Proof.Machine.execPollPresence s
  | .pollSkiprom => Sys2Proof.Machine.execPollSkiprom s
  | .pollConvert => Sys2Proof.Machine.execPollConvert s
  | .pollPollconv => Sys2Proof.Machine.execPollPollconv s
  | .pollReadsp => Sys2Proof.Machine.execPollReadsp s
  | .pollParse => Sys2Proof.Machine.execPollParse s
  | .pollDone => Sys2Proof.Machine.execPollDone s
  | .pollError => Sys2Proof.Machine.execPollError s
  | .skipRom => Sys2Proof.Machine.execSkipRom s
  | .convertT => Sys2Proof.Machine.execConvertT s
  | .readScratchpad => Sys2Proof.Machine.execReadScratchpad s
  | .memRead off width => Sys2Proof.Machine.execMemRead off width s
  | .memWrite off width value => Sys2Proof.Machine.execMemWrite off width value s

end Sys2Proof.Machine
end

