-- ==== Sys2Proof/Machine/Fetch.lean ====
section
/-! DEFINITION. Taking the next input of the trace: the code it spells, and the placing of an instruction where the
next step takes it. -/

namespace Sys2Proof.Machine

/-- The input taken: one input further in the trace. -/
def State.advance (rest : List Input) (s : State) : State := { s with trace := rest, pos := s.pos + 1 }

/-- The offset of an address from SWPE_BASE (20_memory.md R38). Addresses and offsets have 32 bits, and an address
outside the view, below it too, has an offset outside it (log 17). -/
def viewOffset (addr : BitVec 32) (s : State) : BitVec 32 := addr - s.cfg.swpeBase

/-- The state after power-on reset, with the trace the environment still holds: it is no state of the block, and
power-on reset, which sets every field of the block, leaves it (R144, log 7). -/
def State.powerCycle (u : Unspecified) (s : State) : State :=
  { State.powerOn s.cfg u with trace := s.trace, pos := s.pos }

/-- Put an input first in the trace. -/
def State.deliver (inp : Input) (s : State) : State := { s with trace := inp :: s.trace }

/-- A state in which the next POLL starts the transmission of the byte of phase `p` (R66, R75): the selection that
the engine itself makes by its phase. -/
def State.selectCommand (p : Phase) (s : State) : State :=
  { s with txn := p.code, busy := false, txBit := 0, convDone := false
           tmr := s.tmr.set { s.tmr.wr with armed := false } .wr }

/-- The phase that transmits a command byte (R66); none for another byte. -/
def commandPhase (c : Byte) : Option Phase :=
  if c = skipRomByte then some .skipRom
  else if c = convertTByte then some .convertTemperature
  else if c = readScratchpadByte then some .readScratchpad
  else none

/-- Place an 8-bit word: a command byte by selecting its phase and a POLL, any other word as a stimulus (log 13). -/
def State.placeByte (w : Byte) (s : State) : State :=
  match commandPhase w with
  | some p => (s.selectCommand p).deliver (.word pollWord)
  | none => s.deliver (.word w)

/-- Place a register read of the view's offset `off`, of width 4 (log 13). -/
def State.placeAccess (off : BitVec 32) (s : State) : State :=
  s.deliver (.hostRead (s.cfg.swpeBase + off) 4)

end Sys2Proof.Machine
end

