-- ==== Sys2Proof/Machine/Step.lean ====
section
/-! DEFINITION. One step: the next input of the trace is decoded and executed (00_scope.md R6: every step is one
atomic transition, in the order the environment delivers the inputs). -/

namespace Sys2Proof.Machine

/-- Run what a code spells, or refuse a reserved word by name and position (30_encoding.md R68). -/
def runCode (c : Code) (w : Byte) (rest : List Input) (s : State) : Host.Outcome State Fault Refusal :=
  match decode c with
  | .ok i => exec i (s.advance rest)
  | .error why => .refused (.reservedWord w why s.pos)

/-- One step of the machine. -/
def step (s : State) : Host.Outcome State Fault Refusal :=
  match s.trace with
  | [] => .refused .noStimulus
  | .word w :: rest => runCode (.stim w) w rest s
  | .hostRead addr width :: rest => runCode (.read (viewOffset addr s) width) 0 rest s
  | .hostWrite addr width value :: rest => runCode (.write (viewOffset addr s) width value) 0 rest s
  | .powerOn u :: rest => .next ((s.advance rest).powerCycle u)

/-- The instruction of `nbits` bits `w` placed as the next input of the trace (log 13). -/
def State.withFetchWord (s : State) (nbits w : Nat) : State :=
  if nbits = 8 then s.placeByte (BitVec.ofNat 8 w)
  else if nbits = 32 then s.placeAccess (BitVec.ofNat 32 w)
  else s

end Sys2Proof.Machine
end

