-- ==== Sys2Proof/Machine/Asm.lean ====
section
/-! DEFINITION. The assembler syntax of a stimulus trace (30_encoding.md R70) and its pseudo-instructions (R71).
One stimulus or pseudo-instruction a line; an optional comment after a semicolon. -/

namespace Sys2Proof.Machine

/-- What separates a mnemonic from its operand: a space, a tab or a carriage return (log 21). -/
def asmBlank (c : Char) : Bool := c == ' ' || c == '\t' || c == '\r'

/-- The word read so far, if any, as one token. -/
def asmFlush (cur : List Char) : List String := if cur.isEmpty then [] else [String.ofList cur]

/-- The tokens of a line; `cur` is the word read so far. -/
def asmTokens (cur : List Char) : List Char → List String
  | [] => asmFlush cur
  | c :: cs => if asmBlank c then asmFlush cur ++ asmTokens [] cs else asmTokens (cur ++ [c]) cs

/-- The operand `b` is 0 or 1; any other operand is refused (R70). -/
def asmBit (tok : String) : Option Bool := if tok == "0" then some false else if tok == "1" then some true else none

/-- A decimal number, most significant digit first; none for no digit or for another character. -/
def asmNumber (acc : Nat) : List Char → Option Nat
  | [] => some acc
  | c :: cs => if c.isDigit then asmNumber (10 * acc + (c.toNat - 48)) cs else none

/-- `n` copies of a list of words. -/
def asmRepeat (n : Nat) (ws : List Byte) : List Byte := (List.replicate n ws).flatten

/-- `WSLOT`: one write slot (R71). -/
def asmWSlot : List Byte := [pollWord, terminalWord .wr]

/-- `POLL*n`: `n` copies of POLL (R71). -/
def asmPollTimes (tok : List Char) : Option (List Byte) :=
  match tok with
  | 'P' :: 'O' :: 'L' :: 'L' :: '*' :: d :: ds =>
    match asmNumber 0 (d :: ds) with
    | some n => some (List.replicate n pollWord)
    | none => none
  | _ => none

/-- A line without an operand: the stimuli of R70 and the pseudo-instructions of R71. -/
def asmPlain (tok : String) : Option (List Byte) :=
  match tok with
  | "INIT" => some [0x01]
  | "POLL" => some [pollWord]
  | "EDGE.F" => some [0x10]
  | "EDGE.R" => some [0x11]
  | "TEND.RST" => some [terminalWord .rst]
  | "TEND.WR" => some [terminalWord .wr]
  | "TEND.RD" => some [terminalWord .rd]
  | "RESETPULSE" => some [pollWord, terminalWord .rst]
  | "PRESENT" => some [pollWord, 0x10, 0x11, terminalWord .rst, pollWord]
  | "ABSENT" => some [pollWord, terminalWord .rst]
  | "WSLOT" => some asmWSlot
  | "WBYTE" => some (asmRepeat 8 asmWSlot ++ [pollWord])
  | "SETTLEWAIT" => some [pollWord, terminalWord .rst, pollWord]
  | _ => asmPollTimes tok.toList

/-- A line with the operand `b`: the captures of R70 and the pseudo-instruction `RSLOT b` of R71. -/
def asmWithBit (tok : String) (b : Bool) : Option (List Byte) :=
  match tok with
  | "TCAP.RST" => some [captureWord .rst b]
  | "TCAP.WR" => some [captureWord .wr b]
  | "TCAP.RD" => some [captureWord .rd b]
  | "RSLOT" => some [pollWord, captureWord .rd b, terminalWord .rd, pollWord]
  | _ => none

/-- The words of one line; an empty line has none. -/
def asmLine (line : String) : Option (List Byte) :=
  match asmTokens [] (line.toList.takeWhile (· != ';')) with
  | [] => some []
  | [tok] => asmPlain tok
  | [tok, operand] =>
    match asmBit operand with
    | some b => asmWithBit tok b
    | none => none
  | _ => none

/-- A trace, line by line; refused as a whole if a line is. -/
def assemble : List String → Option (List Byte)
  | [] => some []
  | line :: lines =>
    match asmLine line, assemble lines with
    | some ws, some rest => some (ws ++ rest)
    | _, _ => none

end Sys2Proof.Machine
end

