-- ==== Sys2Proof/Machine/Lines.lean ====
section
/-! DEFINITION. Several instances of the block, one per sensor line: the product of independent copies, each with
its own state, register view, pin and timers, and no shared state (60_exceptions.md R141). -/

namespace Sys2Proof.Machine

/-- The instances, in the order of their lines. -/
abbrev Lines := List State

/-- One step of line `k`: that copy steps and no other changes. A step of a line that does not exist is none
(log 18). -/
def stepLine (k : Nat) (ls : Lines) : Option (Host.Outcome Lines Fault Refusal) :=
  match ls[k]? with
  | none => none
  | some s => some (match step s with
    | .next t => .next (ls.set k t)
    | .fault r => .fault r
    | .refused r => .refused r)

end Sys2Proof.Machine
end

