-- ==== Sys2Proof/Machine/Ports.lean ====
section
/-! DEFINITION. The block's output ports (44_host_interface.md R115), as functions of the state, and the line's
level as R107 to R109 give it. -/

namespace Sys2Proof.Machine

/-- `pad_oe = (S.drv != REL)` (R115). -/
def padOe (s : State) : Bool := decide (s.drv ≠ .rel)

/-- `pad_o = (S.drv = HIGH)` (R115). -/
def padO (s : State) : Bool := decide (s.drv = .high)

/-- The arm request `tmr_arm[t]` of a step from `s` to `t`, with `tmr_period[t]` and `tmr_cmp[t]` (R100, R115): the
timer was not armed before it and is after it. -/
def armRequest (id : TimerId) (s t : State) : Option (Nat × Option Nat) :=
  if !(s.tmr.get id).armed && (t.tmr.get id).armed then some ((t.tmr.get id).period, (t.tmr.get id).cmp) else none

end Sys2Proof.Machine
end

