-- ==== Sys2Proof/Safety.lean ====
section
/-! DEFINITION. What counts as a safe run, in the terms the statements use: the invariants of 10_state.md R35 and
R29 with what the rules say is unreachable, the end of a run (44_host_interface.md R121), and the ring as a queue. -/

namespace Sys2Proof.Machine

/-- The ring invariant (R29, R97): `CAP` entries, cursors reduced, `head = (tail + count) mod CAP`. -/
structure Ring.Wf (cap : Nat) (r : Ring) : Prop where
  length : r.buf.length = cap
  head : r.head.toNat < cap
  tail : r.tail.toNat < cap
  count : r.count.toNat ≤ cap
  cursors : r.head.toNat = (r.tail.toNat + r.count.toNat) % cap

/-- The unconsumed entries of the ring, the oldest first. -/
def Ring.contents (cap : Nat) (r : Ring) : List Bool :=
  (List.range r.count.toNat).map fun i => r.buf.getD ((r.tail.toNat + i) % cap) false

/-- Push the bits of a list in order. -/
def pushAll : List Bool → State → State
  | [], s => s
  | b :: bs, s => pushAll bs (push b s)

/-- Pop `n` times: what each pop returns, in order, and the state after. -/
def popTimes : Nat → State → List (Option Bool) × State
  | 0, s => ([], s)
  | n + 1, s =>
    let r := pop s
    let rest := popTimes n r.2
    (r.1 :: rest.1, rest.2)

/-- How many timers are armed. -/
def Timers.armedCount (m : Timers) : Nat := m.rst.armed.toNat + m.wr.armed.toNat + m.rd.armed.toNat

/-- What holds of the engine and its timers in every state reachable from power-on reset (R35). -/
structure State.EngineInv (s : State) : Prop where
  /-- I6. -/
  phase : s.txn.toNat ≤ 8
  /-- I5. -/
  txBit : s.txBit.toNat ≤ 8
  /-- I5. -/
  rxBit : s.rxBit.toNat ≤ 16
  /-- I1: busy exactly when some timer is armed. -/
  busyArmed : s.busy = (s.tmr.rst.armed || s.tmr.wr.armed || s.tmr.rd.armed)
  /-- I1: at most one timer is armed. -/
  oneArmed : s.tmr.armedCount ≤ 1
  /-- I2: only timer 2 has a capture pending, and only while armed. -/
  rstCapture : s.tmr.rst.capPend = false
  wrCapture : s.tmr.wr.capPend = false
  rdCapture : s.tmr.rd.capPend = true → s.tmr.rd.armed = true
  /-- I4. -/
  window : s.pwin = true → s.tmr.rst.armed = true
  /-- The line is released while a read slot is in flight (R103). -/
  released : s.tmr.rd.armed = true → s.drv = .rel
  /-- The retry counter never exceeds its load value (R23). -/
  retry : s.retry.toNat ≤ s.cfg.retryN.toNat
  /-- The watchdog stays 0 while disabled and below its limit otherwise (R27, R133). -/
  watchdog : s.wdt = 0 ∨ s.wdt.toNat < s.cfg.wdtLimit.toNat

/-- What holds of the ring in every reachable state (R29, I3 of R35, R77, R98), and what is unreachable (R128). -/
structure State.RingInv (s : State) : Prop where
  ring : s.ring.Wf s.cfg.cap
  /-- I3, in every state. -/
  oneSample : s.ring.count.toNat ≤ 1
  /-- A slot whose capture is pending has no sample waiting (R76). -/
  noSample : s.tmr.rd.capPend = true → s.ring.count = 0
  /-- A slot whose capture has fired has its sample waiting (R77). -/
  sample : s.rdPend = true → s.tmr.rd.capPend = false → s.ring.count = 1
  /-- Underrun and overflow are unreachable (R77, R98). -/
  noUnderrun : s.undr = false
  noOverflow : s.ovr = false
  /-- ILLEGAL_STATE and DOUBLE_ARM are unreachable (R128). -/
  noIllegalState : s.fault.illegalState = false
  noDoubleArm : s.fault.doubleArm = false

/-- The invariant of the reachable states. -/
structure State.Inv (s : State) : Prop where
  engine : s.EngineInv
  rings : s.RingInv

/-- A run has ended well at the first such state (R121). -/
def State.endedWell (s : State) : Bool :=
  ((decide (s.txn = Phase.done.code) && s.done) || (decide (s.txn = Phase.error.code) && s.err))
  && !s.busy && !s.tmr.rst.armed && !s.tmr.wr.armed && !s.tmr.rd.armed && decide (s.fault = FaultSet.empty)

/-- A run has ended badly at the first state with a fault recorded (R121). -/
def State.endedBadly (s : State) : Bool := decide (s.fault ≠ FaultSet.empty)

end Sys2Proof.Machine
end

