-- ==== Sys2Proof/Certificates/Slice0/Obligations.lean ====
section
/-! DEFINITION. The statements about the model. Each docstring names the rule of spec/ it formalises. A state
"with no fault recorded" is one with `s.fault = FaultSet.empty`: in any other nothing has a step (R128). -/

open Sys2Proof Sys2Proof.Machine

/-! ### Decoding and stepping -/

/-- A step runs the instruction the next input spells, in the state with that input taken (R6). A host access is
given by its offset from SWPE_BASE (R38). The model's choices: that inputs stand in a trace with a position (log 5),
and that the offset is the address minus the base modulo 2^32 (log 17). -/
def Obligations.StepRunsTheDecodedInput : Prop :=
  (∀ (s : State) (w : Byte) (rest : List Input) (i : Instr),
    s.trace = .word w :: rest → decode (.stim w) = .ok i →
      step s = exec i { s with trace := rest, pos := s.pos + 1 }) ∧
  (∀ (s : State) (addr : BitVec 32) (width : Nat) (rest : List Input),
    s.trace = .hostRead addr width :: rest →
      step s = exec (.memRead (addr - s.cfg.swpeBase) width) { s with trace := rest, pos := s.pos + 1 }) ∧
  (∀ (s : State) (addr : BitVec 32) (width : Nat) (value : Word) (rest : List Input),
    s.trace = .hostWrite addr width value :: rest →
      step s = exec (.memWrite (addr - s.cfg.swpeBase) width value) { s with trace := rest, pos := s.pos + 1 })

/-- R68: a reserved word is refused by name and position, and the machine never sees it; with no input left there is
no step (log 6). -/
def Obligations.ReservedWordIsRefusedByNameAndPosition : Prop :=
  (∀ (s : State) (w : Byte) (rest : List Input) (why : Reserved),
    s.trace = .word w :: rest → decode (.stim w) = .error why → step s = .refused (.reservedWord w why s.pos)) ∧
  (∀ s : State, s.trace = [] → step s = .refused .noStimulus)

/-- R64, R68: the words that spell a stimulus are the thirteen that match a row of R64, each exactly one row; the
other 243 are reserved. -/
def Obligations.ExactlyThirteenWordsSpellAStimulus : Prop :=
  (∀ w : Byte, (∃ i, decode (.stim w) = .ok i) ↔
    w ∈ [0x01#8, 0x02#8, 0x10#8, 0x11#8, 0x20#8, 0x28#8, 0x21#8, 0x29#8, 0x22#8, 0x2A#8, 0x30#8, 0x31#8, 0x32#8]) ∧
  (∀ w : Byte, stimRowsMatched w ≤ 1 ∧ (stimRowsMatched w = 1 ↔ ∃ i, decode (.stim w) = .ok i))

/-- Words written out from the spec's encodings (R64, R65, R66). -/
def Obligations.SpelledWordsDecodeAsTheTableSays : Prop :=
  decode (.stim 0b00000001#8) = .ok .init ∧ decode (.stim 0b00000010#8) = .ok .poll ∧
  decode (.stim 0b00010000#8) = .ok .edgeF ∧ decode (.stim 0b00010001#8) = .ok .edgeR ∧
  decode (.stim 0b00100010#8) = .ok (.tcapRd false) ∧ decode (.stim 0b00101010#8) = .ok (.tcapRd true) ∧
  decode (.stim 0b00101001#8) = .ok (.tcapWr true) ∧ decode (.stim 0b00110001#8) = .ok .tendWr ∧
  decode (.arm 0b00000010#8 0b0101#4) = .ok .pollReadsp ∧ decode (.cmd 0b11001100#8) = .ok .skipRom ∧
  decode (.cmd 0b01000100#8) = .ok .convertT ∧ decode (.cmd 0b10111110#8) = .ok .readScratchpad ∧
  decode (.read 0x04#32 4) = .ok (.memRead 0x04#32 4) ∧
  decode (.write 0x00#32 4 3#32) = .ok (.memWrite 0x00#32 4 3#32)

/-- Decoding and encoding are inverse in both directions: no operand is dropped, and no code but its encoding spells
an instruction (R61 to R69). -/
def Obligations.DecodeAndEncodeAreInverse : Prop :=
  ∀ (c : Code) (i : Instr), decode c = .ok i ↔ encode i = c

/-- The word the host places is the instruction the next step runs (log 13): a stimulus in the state as it is, a
command byte in a state that differs from it only in what selects the byte. -/
def Obligations.PlacedWordIsTheNextInstruction : Prop :=
  ∀ (s : State) (w : Nat) (i : Instr), decodeTableWord 8 w = some i →
    step (s.withFetchWord 8 w) = exec i { s with pos := s.pos + 1 } ∨
    (∃ p : Phase, (i, p) ∈ [(Instr.skipRom, .skipRom), (.convertT, .convertTemperature),
        (.readScratchpad, .readScratchpad)] ∧
      step (s.withFetchWord 8 w) = exec i { s with
        pos := s.pos + 1, txn := p.code, busy := false, txBit := 0, convDone := false
        tmr := { s.tmr with wr := { s.tmr.wr with armed := false } } })

/-- R70, R71: the assembler's words. -/
def Obligations.AssemblerSpellsTheStimuli : Prop :=
  asmLine "INIT" = some [0x01#8] ∧ asmLine "POLL ; reset arm" = some [0x02#8] ∧
  asmLine "EDGE.F" = some [0x10#8] ∧ asmLine "EDGE.R" = some [0x11#8] ∧
  asmLine "TCAP.RST 0" = some [0x20#8] ∧ asmLine "TCAP.WR 1" = some [0x29#8] ∧
  asmLine "TCAP.RD 1" = some [0x2A#8] ∧ asmLine "TCAP.RD 2" = none ∧
  asmLine "TEND.RST" = some [0x30#8] ∧ asmLine "TEND.WR" = some [0x31#8] ∧ asmLine "TEND.RD" = some [0x32#8] ∧
  asmLine "POLL*3" = some [0x02#8, 0x02#8, 0x02#8] ∧ asmLine "RESETPULSE" = some [0x02#8, 0x30#8] ∧
  asmLine "PRESENT" = some [0x02#8, 0x10#8, 0x11#8, 0x30#8, 0x02#8] ∧
  asmLine "ABSENT" = some [0x02#8, 0x30#8] ∧ asmLine "WSLOT" = some [0x02#8, 0x31#8] ∧
  asmLine "WBYTE" = some [0x02#8, 0x31#8, 0x02#8, 0x31#8, 0x02#8, 0x31#8, 0x02#8, 0x31#8,
    0x02#8, 0x31#8, 0x02#8, 0x31#8, 0x02#8, 0x31#8, 0x02#8, 0x31#8, 0x02#8] ∧
  asmLine "SETTLEWAIT" = some [0x02#8, 0x30#8, 0x02#8] ∧
  asmLine "RSLOT 0" = some [0x02#8, 0x22#8, 0x32#8, 0x02#8]

/-! ### Reset, configuration, INIT -/

/-- A configuration is built exactly from parameters that meet the constraint column of R7; that `CAP < 16` is
rejected is R8, the spec's own inference from R7. That "as above" gives `T_READ_SAMPLE` both halves of the constraint
above it is the model's reading (log 27). -/
def Obligations.ConfigurationIsBuiltExactlyUnderItsConstraints : Prop :=
  ∀ p : Params, (Config.ofParams p).isSome = true ↔
    16 ≤ p.cap ∧ p.cap ≤ 32 ∧ p.swpeBase.toNat % 64 = 0 ∧ 480 ≤ p.tReset ∧ 240 ≤ p.tPresWin ∧
    60 ≤ p.tWriteSlot ∧ 1 ≤ p.tWriteLow ∧ p.tWriteLow ≤ 15 ∧ 1 ≤ p.tReadLow ∧ 1 ≤ p.tReadSample ∧
    p.tReadLow + p.tReadSample ≤ 15 ∧ p.tReadSample < p.tReadSlot

/-- R36, R144: power-on reset gives every field the listed value; what R36 leaves unspecified takes any value `u`.
The model's reading (log 7, DEDUCED): it is taken in every state, a faulted one too, empties the fault set, and keeps
the configuration and the inputs still to come. -/
def Obligations.PowerOnResetSetsTheListedValues : Prop :=
  ∀ (s : State) (u : Unspecified) (rest : List Input), s.trace = .powerOn u :: rest →
    ∃ t, step s = .next t ∧ t.cfg = s.cfg ∧ t.trace = rest ∧
      t.txn = 0 ∧ t.busy = false ∧ t.txBit = 0 ∧ t.settle = false ∧ t.rxBit = 0 ∧ t.rdPend = false ∧
      t.acc = 0 ∧ t.retry = s.cfg.retryN ∧ t.presSeen = false ∧ t.pwin = false ∧ t.convDone = false ∧
      t.done = false ∧ t.err = false ∧ t.undr = false ∧ t.ovr = false ∧ t.errcode = .none ∧ t.wdt = 0 ∧
      t.temp = 0 ∧ t.ring.buf.length = s.cfg.cap ∧ t.ring.head = 0 ∧ t.ring.tail = 0 ∧ t.ring.count = 0 ∧
      t.drv = .rel ∧ (∀ id, (t.tmr.get id).armed = false ∧ (t.tmr.get id).capPend = false) ∧
      t.log = [] ∧ t.fault = FaultSet.empty ∧
      (∀ i, i < s.cfg.cap → t.ring.buf[i]? = some (u.buf.getLsbD i)) ∧
      (t.tmr.rst.period, t.tmr.rst.cmp) = u.rst ∧ (t.tmr.wr.period, t.tmr.wr.cmp) = u.wr ∧
      (t.tmr.rd.period, t.tmr.rd.cmp) = u.rd

/-- R36: the state right after reset has the values R36 lists. -/
def Obligations.ResetHoldsTheListedValues : Prop :=
  State.reset.txn = 0 ∧ State.reset.busy = false ∧ State.reset.txBit = 0 ∧ State.reset.settle = false ∧
  State.reset.rxBit = 0 ∧ State.reset.rdPend = false ∧ State.reset.acc = 0 ∧
  State.reset.retry = State.reset.cfg.retryN ∧ State.reset.presSeen = false ∧ State.reset.pwin = false ∧
  State.reset.convDone = false ∧ State.reset.done = false ∧ State.reset.err = false ∧
  State.reset.undr = false ∧ State.reset.ovr = false ∧ State.reset.errcode = .none ∧ State.reset.wdt = 0 ∧
  State.reset.temp = 0 ∧ State.reset.ring.buf.length = State.reset.cfg.cap ∧ State.reset.ring.head = 0 ∧
  State.reset.ring.tail = 0 ∧ State.reset.ring.count = 0 ∧ State.reset.drv = .rel ∧
  (∀ id, (State.reset.tmr.get id).armed = false ∧ (State.reset.tmr.get id).capPend = false) ∧
  State.reset.log = [] ∧ State.reset.fault = FaultSet.empty

/-- R116: INIT writes exactly the fields its pseudocode lists, in every state with no fault recorded. The second clause,
that INIT followed by INIT is one INIT, is the spec's own inference from that rule. -/
def Obligations.InitWritesExactlyItsFieldsAndIsIdempotent : Prop :=
  (∀ s : State, s.fault = FaultSet.empty → exec .init s = .next { s with
    txn := 0, txBit := 0, settle := false, rxBit := 0, rdPend := false, acc := 0, presSeen := false
    convDone := false, done := false, err := false, errcode := .none, undr := false, ovr := false, wdt := 0 }) ∧
  (∀ s t : State, exec .init s = .next t → exec .init t = .next t)

/-! ### Faults -/

/-- R128: while `S.fault` is not empty, no stimulus has a step. That the register accesses MEMREAD and MEMWRITE stop
there too is the model's reading (log 8, DEDUCED). -/
def Obligations.FaultedStateHasNoStep : Prop :=
  ∀ (i : Instr) (s : State), s.fault ≠ FaultSet.empty → exec i s = .fault .quiescent

/-- R15: a POLL whose `S.txn` is 9 to 15 records ILLEGAL_STATE and changes nothing else. The second clause, that no rule
writes such a value, is the spec's own inference from its transitions. -/
def Obligations.IllegalPhaseRecordsAFaultAndIsNeverWritten : Prop :=
  (∀ s : State, s.fault = FaultSet.empty → 9 ≤ s.txn.toNat →
    exec .poll s = .next { s with fault := ⟨true, false, false⟩ }) ∧
  (∀ (i : Instr) (s t : State), exec i s = .next t → 9 ≤ t.txn.toNat → t.txn = s.txn)

/-- R100, R128: an action that arms an armed timer is void as a whole and records DOUBLE_ARM. -/
def Obligations.DoubleArmVoidsTheWholeStep : Prop :=
  ∀ s : State, s.fault = FaultSet.empty → s.busy = false →
    (s.txn = 0 → s.tmr.rst.armed = true → exec .poll s = .next { s with fault := ⟨false, true, false⟩ }) ∧
    (s.txn = 1 → s.presSeen = false → s.retry ≠ 0 → s.tmr.rst.armed = true →
      exec .poll s = .next { s with fault := ⟨false, true, false⟩ }) ∧
    (s.txn = 2 → s.txBit.toNat < 8 → s.tmr.wr.armed = true →
      exec .poll s = .next { s with fault := ⟨false, true, false⟩ }) ∧
    (s.txn = 3 → s.txBit.toNat < 8 → ¬(s.txBit = 0 ∧ s.settle = false ∧ s.convDone = true) →
      s.tmr.wr.armed = true →
      exec .poll s = .next { s with fault := ⟨false, true, false⟩ }) ∧
    (s.txn = 3 → 8 ≤ s.txBit.toNat → s.settle = false → s.tmr.rst.armed = true →
      exec .poll s = .next { s with fault := ⟨false, true, false⟩ }) ∧
    (s.txn = 4 → s.rdPend = false → s.tmr.rd.armed = true →
      exec .poll s = .next { s with fault := ⟨false, true, false⟩ }) ∧
    (s.txn = 5 → s.txBit.toNat < 8 → s.tmr.wr.armed = true →
      exec .poll s = .next { s with fault := ⟨false, true, false⟩ }) ∧
    (s.txn = 6 → s.rdPend = false → s.rxBit.toNat < 16 → s.tmr.rd.armed = true →
      exec .poll s = .next { s with fault := ⟨false, true, false⟩ })

/-- R50: an access that is not 32 bits wide, not aligned to 4, or outside the view records BAD_ACCESS and changes no
other state. -/
def Obligations.BadAccessRecordsAFaultAndNothingElse : Prop :=
  ∀ (s : State) (off : BitVec 32) (width : Nat) (value : Word), s.fault = FaultSet.empty →
    (width ≠ 4 ∨ off.toNat % 4 ≠ 0 ∨ 0x40 ≤ off.toNat) →
    exec (.memRead off width) s = .next { s with fault := ⟨false, false, true⟩ } ∧
    exec (.memWrite off width value) s = .next { s with fault := ⟨false, false, true⟩ }

/-- R50, R54: the same at the host's addresses, below the view and above it, wherever the platform puts it, for a read
and for a write. That addresses have 32 bits and the offset is taken modulo 2^32 is the model's choice (log 17), and
so are the trace and its position (log 5). -/
def Obligations.AddressOutsideTheViewIsABadAccess : Prop :=
  ∀ (s : State) (addr : BitVec 32) (width : Nat) (value : Word) (rest : List Input), s.fault = FaultSet.empty →
    (s.trace = .hostRead addr width :: rest ∨ s.trace = .hostWrite addr width value :: rest) →
    (addr.toNat < s.cfg.swpeBase.toNat ∨ s.cfg.swpeBase.toNat + 64 ≤ addr.toNat) →
    step s = .next { s with trace := rest, pos := s.pos + 1, fault := ⟨false, false, true⟩ }

/-! ### POLL and its arms -/

/-- R65: the arm a POLL runs is the one `S.txn` selects. That the arm as an instruction is POLL's whole step in its
phase, the busy gate and the watchdog of R72 and R73 included, is the model's choice (log 11). -/
def Obligations.PollRunsTheArmOfItsPhase : Prop :=
  ∀ s : State,
    (s.txn = 0 → exec .poll s = exec .pollReset s) ∧ (s.txn = 1 → exec .poll s = exec .pollPresence s) ∧
    (s.txn = 2 → exec .poll s = exec .pollSkiprom s) ∧ (s.txn = 3 → exec .poll s = exec .pollConvert s) ∧
    (s.txn = 4 → exec .poll s = exec .pollPollconv s) ∧ (s.txn = 5 → exec .poll s = exec .pollReadsp s) ∧
    (s.txn = 6 → exec .poll s = exec .pollParse s) ∧ (s.txn = 7 → exec .poll s = exec .pollDone s) ∧
    (s.txn = 8 → exec .poll s = exec .pollError s) ∧
    (s.fault = FaultSet.empty → 9 ≤ s.txn.toNat →
      exec .poll s = .next { s with fault := ⟨true, false, false⟩ })

/-- An arm has no step in a state whose phase does not select it (the model's choice, log 11; from R65). -/
def Obligations.ArmStopsWhereItsPhaseIsNotSelected : Prop :=
  ∀ s : State, s.fault = FaultSet.empty →
    (s.txn ≠ 0 → exec .pollReset s = .refused .armNotSelected) ∧
    (s.txn ≠ 1 → exec .pollPresence s = .refused .armNotSelected) ∧
    (s.txn ≠ 2 → exec .pollSkiprom s = .refused .armNotSelected) ∧
    (s.txn ≠ 3 → exec .pollConvert s = .refused .armNotSelected) ∧
    (s.txn ≠ 4 → exec .pollPollconv s = .refused .armNotSelected) ∧
    (s.txn ≠ 5 → exec .pollReadsp s = .refused .armNotSelected) ∧
    (s.txn ≠ 6 → exec .pollParse s = .refused .armNotSelected) ∧
    (s.txn ≠ 7 → exec .pollDone s = .refused .armNotSelected) ∧
    (s.txn ≠ 8 → exec .pollError s = .refused .armNotSelected)

/-- R72: POLL has a step in every state with no fault recorded, busy or not; it appends at most one record to the
bus log and changes neither the configuration nor the inputs still to come. -/
def Obligations.PollCompletesInEveryUnfaultedState : Prop :=
  ∀ s : State, s.fault = FaultSet.empty → ∃ t, exec .poll s = .next t ∧
    (t.log = s.log ∨ ∃ r, t.log = s.log ++ [r]) ∧ t.cfg = s.cfg ∧ t.trace = s.trace ∧ t.pos = s.pos ∧
    t.busData = s.busData

/-- R73, R133, R131: a POLL that finds a line state busy only ticks the watchdog, which enters Error at its limit; in
Done and Error POLL does the same at either value of busy. -/
def Obligations.BusyPollOnlyTicksTheWatchdog : Prop :=
  (∀ s : State, s.fault = FaultSet.empty → s.txn.toNat ≤ 6 → s.busy = true →
    exec .poll s = .next (
      if s.cfg.wdtLimit = 0 then s
      else if s.cfg.wdtLimit.toNat ≤ s.wdt.toNat + 1 then
        { s with wdt := 0, drv := .rel, txn := 8, errcode := .stall }
      else { s with wdt := s.wdt + 1 })) ∧
  (∀ (s t : State) (b : Bool), s.txn = 7 ∨ s.txn = 8 → exec .poll s = .next t →
    exec .poll { s with busy := b } = .next { t with busy := b })

/-- R77, R94, R133: a read-phase POLL that finds its sample missing sets the sticky underrun flag, changes nothing
else of the block, and counts as a poll that could not act. -/
def Obligations.UnderrunIsASoftNoOp : Prop :=
  ∀ s : State, s.fault = FaultSet.empty → s.txn = 4 ∨ s.txn = 6 → s.busy = false → s.rdPend = true →
    s.ring.count = 0 →
    exec .poll s = .next (
      if s.cfg.wdtLimit = 0 then { s with undr := true }
      else if s.cfg.wdtLimit.toNat ≤ s.wdt.toNat + 1 then
        { s with undr := true, wdt := 0, drv := .rel, txn := 8, errcode := .stall }
      else { s with undr := true, wdt := s.wdt + 1 })

/-- R78: the Reset arm. -/
def Obligations.ResetArmStartsTheResetPulse : Prop :=
  ∀ s : State, s.fault = FaultSet.empty → s.txn = 0 → s.busy = false → s.tmr.rst.armed = false →
    exec .pollReset s = .next { s with
      retry := s.cfg.retryN, presSeen := false, pwin := false, drv := .low, busy := true
      tmr := { s.tmr with rst := { armed := true, capPend := false, period := s.cfg.tReset, cmp := none } }
      log := s.log ++ [.rstLow], txn := 1, wdt := 0 }

/-- R79: the Presence arm: a presence seen wins; else the retry counter is tested, and only then decremented. -/
def Obligations.PresenceArmTestsThenDecrements : Prop :=
  ∀ s : State, s.fault = FaultSet.empty → s.txn = 1 → s.busy = false →
    (s.presSeen = true →
      exec .pollPresence s = .next { s with presSeen := false, txBit := 0, txn := 2, wdt := 0 }) ∧
    (s.presSeen = false → s.retry = 0 →
      exec .pollPresence s = .next { s with drv := .rel, txn := 8, errcode := .presenceTimeout, wdt := 0 }) ∧
    (s.presSeen = false → s.retry ≠ 0 → s.tmr.rst.armed = false →
      exec .pollPresence s = .next { s with
        retry := s.retry - 1, drv := .rel, pwin := true, busy := true
        tmr := { s.tmr with rst := { armed := true, capPend := false, period := s.cfg.tPresWin, cmp := none } }
        log := s.log ++ [.presWin], wdt := 0 })

/-- R80, R75: the SkipRom arm sends bit `S.tx_bit` of 0xCC, and leaves after eight. -/
def Obligations.SkipRomArmSendsThenLeaves : Prop :=
  ∀ s : State, s.fault = FaultSet.empty → s.txn = 2 → s.busy = false →
    (s.txBit.toNat < 8 → s.tmr.wr.armed = false →
      exec .pollSkiprom s = .next { s with
        drv := if (0xCC#8).getLsbD s.txBit.toNat then .high else .low, busy := true
        tmr := { s.tmr with wr := { armed := true, capPend := false, period := s.cfg.tWriteSlot, cmp := none } }
        txBit := s.txBit + 1, log := s.log ++ [.wbit ((0xCC#8).getLsbD s.txBit.toNat)], wdt := 0 }) ∧
    (8 ≤ s.txBit.toNat → exec .pollSkiprom s = .next { s with txBit := 0, txn := 3, wdt := 0 })

/-- R81: the ConvertTemperature arm: the flag is tested before any bit is sent; then eight slots of 0x44, the
settle wait, and PollConversion. -/
def Obligations.ConvertArmSkipsSendsSettlesOrLeaves : Prop :=
  ∀ s : State, s.fault = FaultSet.empty → s.txn = 3 → s.busy = false →
    (s.txBit = 0 → s.settle = false → s.convDone = true →
      exec .pollConvert s = .next { s with txn := 5, wdt := 0 }) ∧
    (¬(s.txBit = 0 ∧ s.settle = false ∧ s.convDone = true) → s.txBit.toNat < 8 → s.tmr.wr.armed = false →
      exec .pollConvert s = .next { s with
        drv := if (0x44#8).getLsbD s.txBit.toNat then .high else .low, busy := true
        tmr := { s.tmr with wr := { armed := true, capPend := false, period := s.cfg.tWriteSlot, cmp := none } }
        txBit := s.txBit + 1, log := s.log ++ [.wbit ((0x44#8).getLsbD s.txBit.toNat)], wdt := 0 }) ∧
    (8 ≤ s.txBit.toNat → s.settle = false → s.tmr.rst.armed = false →
      exec .pollConvert s = .next { s with
        settle := true, busy := true
        tmr := { s.tmr with rst := { armed := true, capPend := false, period := s.cfg.tConvSettle, cmp := none } }
        log := s.log ++ [.settle], wdt := 0 }) ∧
    (8 ≤ s.txBit.toNat → s.settle = true →
      exec .pollConvert s = .next { s with settle := false, txBit := 0, rdPend := false, txn := 4, wdt := 0 })

/-- R82, R76: the PollConversion arm: it starts a read slot, or takes the slot's sample; a 1 marks the conversion
complete, resets the cursors and goes to Reset; an underrun is a poll that could not act. -/
def Obligations.PollConversionArmReadsUntilASampledOne : Prop :=
  ∀ s : State, s.fault = FaultSet.empty → s.txn = 4 → s.busy = false →
    (s.rdPend = false → s.tmr.rd.armed = false →
      exec .pollPollconv s = .next { s with
        ring := { s.ring with tail := s.ring.head, count := 0 }
        drv := .rel, rdPend := true, busy := true
        tmr := { s.tmr with rd := { armed := true, capPend := true, period := s.cfg.tReadSlot
                                    cmp := some s.cfg.tReadSample } }
        log := s.log ++ [.rslot], wdt := 0 }) ∧
    (s.rdPend = true → s.ring.count ≠ 0 → s.ring.buf[s.ring.tail.toNat]? = some true →
      exec .pollPollconv s = .next { s with
        rdPend := false, convDone := true, ring := { s.ring with head := 0, tail := 0, count := 0 }
        txn := 0, wdt := 0 }) ∧
    (s.rdPend = true → s.ring.count ≠ 0 → s.ring.buf[s.ring.tail.toNat]? = some false →
      exec .pollPollconv s = .next { s with
        rdPend := false
        ring := { s.ring with tail := BitVec.ofNat 5 ((s.ring.tail.toNat + 1) % s.cfg.cap)
                              count := s.ring.count - 1 }
        wdt := 0 }) ∧
    (s.rdPend = true → s.ring.count = 0 → exec .pollPollconv s = .next (wdtTick { s with undr := true }))

/-- R83: the ReadScratchpad arm. -/
def Obligations.ReadScratchpadArmSendsThenLeaves : Prop :=
  ∀ s : State, s.fault = FaultSet.empty → s.txn = 5 → s.busy = false →
    (s.txBit.toNat < 8 → s.tmr.wr.armed = false →
      exec .pollReadsp s = .next { s with
        drv := if (0xBE#8).getLsbD s.txBit.toNat then .high else .low, busy := true
        tmr := { s.tmr with wr := { armed := true, capPend := false, period := s.cfg.tWriteSlot, cmp := none } }
        txBit := s.txBit + 1, log := s.log ++ [.wbit ((0xBE#8).getLsbD s.txBit.toNat)], wdt := 0 }) ∧
    (8 ≤ s.txBit.toNat →
      exec .pollReadsp s = .next { s with
        txBit := 0, rxBit := 0, acc := 0, rdPend := false, txn := 6, wdt := 0 })

/-- R84: the ParseScratchpad arm: a read slot; its sample enters the accumulator at position `S.rx_bit`; the
sixteenth goes to Done; a sample beyond the register is not accumulated; an underrun is a poll that could not act. -/
def Obligations.ParseArmAccumulatesSixteenBits : Prop :=
  ∀ (s : State) (b : Bool), s.fault = FaultSet.empty → s.txn = 6 → s.busy = false →
    (s.rdPend = false → s.rxBit.toNat < 16 → s.tmr.rd.armed = false →
      exec .pollParse s = .next { s with
        ring := { s.ring with tail := s.ring.head, count := 0 }
        drv := .rel, rdPend := true, busy := true
        tmr := { s.tmr with rd := { armed := true, capPend := true, period := s.cfg.tReadSlot
                                    cmp := some s.cfg.tReadSample } }
        log := s.log ++ [.rslot], wdt := 0 }) ∧
    (s.rdPend = false → 16 ≤ s.rxBit.toNat → exec .pollParse s = .next { s with txn := 7, wdt := 0 }) ∧
    (s.rdPend = true → s.ring.count ≠ 0 → s.ring.buf[s.ring.tail.toNat]? = some b → s.rxBit.toNat < 16 →
      exec .pollParse s = .next { s with
        rdPend := false
        ring := { s.ring with tail := BitVec.ofNat 5 ((s.ring.tail.toNat + 1) % s.cfg.cap)
                              count := s.ring.count - 1 }
        acc := s.acc ||| ((BitVec.ofBool b).setWidth 16 <<< s.rxBit.toNat), rxBit := s.rxBit + 1
        txn := if s.rxBit.toNat = 15 then 7 else 6, wdt := 0 }) ∧
    (s.rdPend = true → s.ring.count ≠ 0 → s.ring.buf[s.ring.tail.toNat]? = some b → 16 ≤ s.rxBit.toNat →
      exec .pollParse s = .next { s with
        rdPend := false
        ring := { s.ring with tail := BitVec.ofNat 5 ((s.ring.tail.toNat + 1) % s.cfg.cap)
                              count := s.ring.count - 1 }
        txn := if s.rxBit.toNat = 16 then 7 else 6, wdt := 0 }) ∧
    (s.rdPend = true → s.ring.count = 0 → exec .pollParse s = .next (wdtTick { s with undr := true }))

/-- R85: the Done arm, at any `S.busy`: the first poll decodes and reports, a later one changes nothing. -/
def Obligations.DoneArmReportsOnce : Prop :=
  ∀ s : State, s.fault = FaultSet.empty → s.txn = 7 →
    (s.done = false →
      exec .pollDone s = .next { s with
        temp := if s.cfg.decodeSigned then s.acc.signExtend 32 else s.acc.setWidth 32
        done := true, convDone := false, acc := 0, rxBit := 0
        log := s.log ++ [.reportDone (if s.cfg.decodeSigned then s.acc.signExtend 32 else s.acc.setWidth 32)] }) ∧
    (s.done = true → exec .pollDone s = .next s)

/-- R86: the Error arm, at any `S.busy`: the first poll reports, a later one changes nothing. -/
def Obligations.ErrorArmReportsOnce : Prop :=
  ∀ s : State, s.fault = FaultSet.empty → s.txn = 8 →
    (s.err = false → exec .pollError s = .next { s with err := true, log := s.log ++ [.reportErr s.errcode] }) ∧
    (s.err = true → exec .pollError s = .next s)

/-! ### Command bytes -/

/-- R63, R66, R75: one step of a command byte, in its phase and with bits left, starts the write slot of bit
`S.tx_bit` of the byte, and is the step POLL makes there. -/
def Obligations.CommandByteStepSendsItsNextBit : Prop :=
  ∀ (s : State) (i : Instr) (c : Byte), s.fault = FaultSet.empty → s.busy = false → s.txBit.toNat < 8 →
    s.tmr.wr.armed = false →
    ((i = .skipRom ∧ c = 0xCC#8 ∧ s.txn = 2) ∨
      (i = .convertT ∧ c = 0x44#8 ∧ s.txn = 3 ∧ ¬(s.txBit = 0 ∧ s.settle = false ∧ s.convDone = true)) ∨
      (i = .readScratchpad ∧ c = 0xBE#8 ∧ s.txn = 5)) →
    exec i s = .next { s with
      drv := if c.getLsbD s.txBit.toNat then .high else .low, busy := true
      tmr := { s.tmr with wr := { armed := true, capPend := false, period := s.cfg.tWriteSlot, cmp := none } }
      txBit := s.txBit + 1, log := s.log ++ [.wbit (c.getLsbD s.txBit.toNat)], wdt := 0 } ∧
    exec .poll s = exec i s

/-- A command byte has no step where the engine does not start a slot of it (the model's choice, log 12; from R66
and R75). -/
def Obligations.CommandByteStopsWhereItIsNotSent : Prop :=
  ∀ s : State, s.fault = FaultSet.empty →
    (s.txn ≠ 2 ∨ s.busy = true ∨ 8 ≤ s.txBit.toNat → exec .skipRom s = .refused .commandNotSent) ∧
    (s.txn ≠ 3 ∨ s.busy = true ∨ 8 ≤ s.txBit.toNat ∨ (s.txBit = 0 ∧ s.settle = false ∧ s.convDone = true) →
      exec .convertT s = .refused .commandNotSent) ∧
    (s.txn ≠ 5 ∨ s.busy = true ∨ 8 ≤ s.txBit.toNat → exec .readScratchpad s = .refused .commandNotSent)

/-- R52, R66: the bits of the three command bytes, slot 0 first. -/
def Obligations.CommandBytesGoOutLeastSignificantBitFirst : Prop :=
  (List.range 8).map (fun k => transmitBit skipRomByte (BitVec.ofNat 4 k)) =
    [false, false, true, true, false, false, true, true] ∧
  (List.range 8).map (fun k => transmitBit convertTByte (BitVec.ofNat 4 k)) =
    [false, false, true, false, false, false, true, false] ∧
  (List.range 8).map (fun k => transmitBit readScratchpadByte (BitVec.ofNat 4 k)) =
    [false, true, true, true, true, true, false, true]

/-! ### Events -/

/-- R111: a falling edge sets the presence flag inside the presence window, and has no effect anywhere else. -/
def Obligations.FallingEdgeIsSeenOnlyInsideTheWindow : Prop :=
  ∀ s : State, s.fault = FaultSet.empty →
    (s.txn = 1 ∧ s.pwin = true → exec .edgeF s = .next { s with presSeen := true }) ∧
    (¬(s.txn = 1 ∧ s.pwin = true) → exec .edgeF s = .next s)

/-- R112: a rising edge has no effect in any state. -/
def Obligations.RisingEdgeHasNoEffect : Prop :=
  ∀ s : State, s.fault = FaultSet.empty → exec .edgeR s = .next s

/-- R103, R93, R109: an enabled capture clears its pending mark, samples the line (0 while the block drives it low),
pushes the sample, dropping the oldest entry of a full ring, and changes nothing else. -/
def Obligations.EnabledCapturePushesTheSample : Prop :=
  ∀ (s : State) (id : TimerId) (level v : Bool) (m : Timers) (i : Instr), s.fault = FaultSet.empty →
    (s.tmr.get id).armed = true → (s.tmr.get id).capPend = true →
    v = (if s.drv = .low then false else level) →
    ((id = .rst ∧ i = .tcapRst level ∧ m = { s.tmr with rst := { s.tmr.rst with capPend := false } }) ∨
      (id = .wr ∧ i = .tcapWr level ∧ m = { s.tmr with wr := { s.tmr.wr with capPend := false } }) ∨
      (id = .rd ∧ i = .tcapRd level ∧ m = { s.tmr with rd := { s.tmr.rd with capPend := false } })) →
    exec i s = .next { s with
      tmr := m
      ring := {
        buf := s.ring.buf.set s.ring.head.toNat v
        head := BitVec.ofNat 5 ((s.ring.head.toNat + 1) % s.cfg.cap)
        tail := if s.ring.count.toNat = s.cfg.cap then BitVec.ofNat 5 ((s.ring.tail.toNat + 1) % s.cfg.cap)
                else s.ring.tail
        count := if s.ring.count.toNat = s.cfg.cap then s.ring.count else s.ring.count + 1 }
      ovr := s.ovr || decide (s.ring.count.toNat = s.cfg.cap)
      log := s.log ++ [.sample v] }

/-- R104: an enabled terminal event disarms its timer and clears busy; timer 0 closes the presence window, timer 1
releases the line, and no timer writes the phase. -/
def Obligations.EnabledTerminalClearsBusy : Prop :=
  ∀ s : State, s.fault = FaultSet.empty →
    (s.tmr.rst.armed = true → s.tmr.rst.capPend = false →
      exec .tendRst s = .next { s with
        tmr := { s.tmr with rst := { s.tmr.rst with armed := false } }, pwin := false, busy := false }) ∧
    (s.tmr.wr.armed = true → s.tmr.wr.capPend = false →
      exec .tendWr s = .next { s with
        tmr := { s.tmr with wr := { s.tmr.wr with armed := false } }, drv := .rel, busy := false }) ∧
    (s.tmr.rd.armed = true → s.tmr.rd.capPend = false →
      exec .tendRd s = .next { s with
        tmr := { s.tmr with rd := { s.tmr.rd with armed := false } }, busy := false })

/-- R101: a timer stimulus that is not enabled has no step. -/
def Obligations.TimerStimulusNotEnabledHasNoStep : Prop :=
  ∀ (s : State) (level : Bool), s.fault = FaultSet.empty →
    (¬(s.tmr.rst.armed = true ∧ s.tmr.rst.capPend = true) → exec (.tcapRst level) s = .fault .notEnabled) ∧
    (¬(s.tmr.wr.armed = true ∧ s.tmr.wr.capPend = true) → exec (.tcapWr level) s = .fault .notEnabled) ∧
    (¬(s.tmr.rd.armed = true ∧ s.tmr.rd.capPend = true) → exec (.tcapRd level) s = .fault .notEnabled) ∧
    (¬(s.tmr.rst.armed = true ∧ s.tmr.rst.capPend = false) → exec .tendRst s = .fault .notEnabled) ∧
    (¬(s.tmr.wr.armed = true ∧ s.tmr.wr.capPend = false) → exec .tendWr s = .fault .notEnabled) ∧
    (¬(s.tmr.rd.armed = true ∧ s.tmr.rd.capPend = false) → exec .tendRd s = .fault .notEnabled)

/-! ### The register view -/

/-- R117, R53: a legal read gives the register's value to the host and changes no state of the block; the same read
again gives the same value. -/
def Obligations.LegalReadReturnsTheRegister : Prop :=
  ∀ (s : State) (off : BitVec 32), s.fault = FaultSet.empty → off.toNat % 4 = 0 → off.toNat < 0x40 →
    exec (.memRead off 4) s = .next { s with busData := some (readReg off s) } ∧
    readReg off { s with busData := some (readReg off s) } = readReg off s

/-- R118, R39, R49: a legal write. CTRL bit 0 is one INIT and bit 1 one POLL, in that order; bits 31:2 and every
other register ignore it; an illegal access records BAD_ACCESS. R118 calls INIT and POLL two steps; that they are one
`exec` is the model's form (log 15, DEDUCED). -/
def Obligations.LegalWriteStrobesInitThenPoll : Prop :=
  ∀ (s : State) (off : BitVec 32) (value : Word), s.fault = FaultSet.empty →
    (off = 0 → value.getLsbD 0 = false → value.getLsbD 1 = false → exec (.memWrite off 4 value) s = .next s) ∧
    (off = 0 → value.getLsbD 0 = true → value.getLsbD 1 = false →
      exec (.memWrite off 4 value) s = exec .init s) ∧
    (off = 0 → value.getLsbD 0 = false → value.getLsbD 1 = true →
      exec (.memWrite off 4 value) s = exec .poll s) ∧
    (off = 0 → value.getLsbD 0 = true → value.getLsbD 1 = true →
      ∃ u t, exec .init s = .next u ∧ exec .poll u = .next t ∧ exec (.memWrite off 4 value) s = .next t) ∧
    (off ≠ 0 → off.toNat % 4 = 0 → off.toNat < 0x40 → exec (.memWrite off 4 value) s = .next s) ∧
    (∀ width : Nat, width ≠ 4 ∨ off.toNat % 4 ≠ 0 ∨ 0x40 ≤ off.toNat →
      exec (.memWrite off width value) s = .next { s with fault := ⟨false, false, true⟩ })

/-- R40: the fields of STATUS. -/
def Obligations.StatusShowsItsFields : Prop :=
  ∀ s : State, (readReg 0x04 s).extractLsb' 0 4 = s.txn ∧
    (readReg 0x04 s).getLsbD 4 = s.busy ∧ (readReg 0x04 s).getLsbD 5 = s.convDone ∧
    (readReg 0x04 s).getLsbD 6 = s.presSeen ∧ (readReg 0x04 s).getLsbD 7 = s.pwin ∧
    (readReg 0x04 s).getLsbD 8 = s.rdPend ∧ (readReg 0x04 s).getLsbD 9 = s.settle ∧
    (readReg 0x04 s).getLsbD 10 = s.done ∧ (readReg 0x04 s).getLsbD 11 = s.err ∧
    (readReg 0x04 s).extractLsb' 12 2 =
      (if s.errcode = .none then 0#2 else if s.errcode = .presenceTimeout then 1#2 else 2#2) ∧
    (readReg 0x04 s).getLsbD 14 = s.undr ∧ (readReg 0x04 s).getLsbD 15 = s.ovr ∧
    (readReg 0x04 s).getLsbD 16 = (s.done || s.err) ∧ (readReg 0x04 s).extractLsb' 17 15 = 0#15

/-- R42, R43, R45: the fields of ACC, RING and RETRY. -/
def Obligations.AccRingAndRetryShowTheirFields : Prop :=
  ∀ s : State,
    ((readReg 0x0C s).extractLsb' 0 16 = s.acc ∧ (readReg 0x0C s).extractLsb' 16 5 = s.rxBit ∧
      (readReg 0x0C s).extractLsb' 21 3 = 0#3 ∧ (readReg 0x0C s).extractLsb' 24 4 = s.txBit ∧
      (readReg 0x0C s).extractLsb' 28 4 = 0#4) ∧
    ((readReg 0x10 s).extractLsb' 0 5 = s.ring.head ∧ (readReg 0x10 s).extractLsb' 5 3 = 0#3 ∧
      (readReg 0x10 s).extractLsb' 8 5 = s.ring.tail ∧ (readReg 0x10 s).extractLsb' 13 3 = 0#3 ∧
      (readReg 0x10 s).extractLsb' 16 6 = s.ring.count ∧ (readReg 0x10 s).extractLsb' 22 10 = 0#10) ∧
    ((readReg 0x18 s).extractLsb' 0 8 = s.retry ∧ (readReg 0x18 s).extractLsb' 8 8 = 0#8 ∧
      (readReg 0x18 s).extractLsb' 16 16 = s.wdt)

/-- R46: the fields of LINE. -/
def Obligations.LineShowsDriverAndTimers : Prop :=
  ∀ s : State,
    (readReg 0x1C s).extractLsb' 0 2 = (if s.drv = .rel then 0#2 else if s.drv = .low then 1#2 else 2#2) ∧
    (readReg 0x1C s).extractLsb' 2 2 = 0#2 ∧
    (readReg 0x1C s).getLsbD 4 = s.tmr.rst.armed ∧ (readReg 0x1C s).getLsbD 5 = s.tmr.wr.armed ∧
    (readReg 0x1C s).getLsbD 6 = s.tmr.rd.armed ∧ (readReg 0x1C s).getLsbD 7 = false ∧
    (readReg 0x1C s).getLsbD 8 = s.tmr.rst.capPend ∧ (readReg 0x1C s).getLsbD 9 = s.tmr.wr.capPend ∧
    (readReg 0x1C s).getLsbD 10 = s.tmr.rd.capPend ∧ (readReg 0x1C s).extractLsb' 11 21 = 0#21

/-- R41, R47, R48, R39, R49: TEMP, CONFIG and WDTCFG; CTRL and the reserved offsets read 0. -/
def Obligations.TempConfigAndReservedOffsetsRead : Prop :=
  ∀ s : State, readReg 0x08 s = s.temp ∧
    ((readReg 0x20 s).extractLsb' 0 8 = s.cfg.retryN ∧
      ((readReg 0x20 s).extractLsb' 8 6).toNat = s.cfg.cap ∧ (readReg 0x20 s).extractLsb' 14 2 = 0#2 ∧
      (readReg 0x20 s).getLsbD 16 = s.cfg.decodeSigned ∧ (readReg 0x20 s).extractLsb' 17 15 = 0#15) ∧
    ((readReg 0x24 s).extractLsb' 0 16 = s.cfg.wdtLimit ∧ (readReg 0x24 s).extractLsb' 16 16 = 0#16) ∧
    readReg 0x00 s = 0 ∧ (∀ off : BitVec 32, 0x28 ≤ off.toNat → off.toNat < 0x40 → readReg off s = 0)

/-- R44: bit `i` of RINGDATA is ring entry `i` for `i < CAP`; the bits above read 0; right after power-on an entry
reads as whatever value `u` the storage took. -/
def Obligations.RingDataShowsTheEntries : Prop :=
  (∀ (s : State) (i : Nat), s.ring.buf.length = s.cfg.cap →
    (i < s.cfg.cap → s.ring.buf[i]? = some ((readReg 0x14 s).getLsbD i)) ∧
    (s.cfg.cap ≤ i → (readReg 0x14 s).getLsbD i = false)) ∧
  (∀ (cfg : Config) (u : Unspecified) (i : Nat), i < cfg.cap →
    (readReg 0x14 (State.powerOn cfg u)).getLsbD i = u.buf.getLsbD i)

/-! ### The decoder -/

/-- R123: the decode is exact under either setting. That its top bits are copies of bit 15, or 0, is R124, the spec's
own inference from R123. -/
def Obligations.DecodeIsExact : Prop :=
  ∀ a : BitVec 16, (decodeTemp true a).toInt = a.toInt ∧ (decodeTemp false a).toNat = a.toNat ∧
    (∀ i, 15 ≤ i → i < 32 → (decodeTemp true a).getLsbD i = a.getLsbD 15) ∧
    (∀ i, 16 ≤ i → (decodeTemp false a).getLsbD i = false)

/-! ### The ring as a queue -/

/-- R93, R94, R95, R96: on a ring that meets its invariant, push appends (dropping the oldest entry when full), pop
returns the oldest entry and removes it, flush and the cursor reset empty it, and every one keeps the invariant. -/
def Obligations.RingIsABoundedQueue : Prop :=
  ∀ (s : State) (b : Bool), s.ring.Wf s.cfg.cap →
    ((push b s).ring.Wf s.cfg.cap ∧ (push b s).ring.contents s.cfg.cap =
      (if s.ring.count.toNat = s.cfg.cap then (s.ring.contents s.cfg.cap).tail else s.ring.contents s.cfg.cap)
        ++ [b]) ∧
    ((pop s).1 = (s.ring.contents s.cfg.cap).head? ∧ (pop s).2.ring.Wf s.cfg.cap ∧
      (pop s).2.ring.contents s.cfg.cap = (s.ring.contents s.cfg.cap).tail) ∧
    ((flush s).ring.Wf s.cfg.cap ∧ (flush s).ring.contents s.cfg.cap = []) ∧
    ((resetCursors s).ring.Wf s.cfg.cap ∧ (resetCursors s).ring.contents s.cfg.cap = [])

/-- R93 (the source's property 3): pushing CAP+1 bits into an empty ring and popping CAP of them gives the last CAP
bits in order, for every capacity; the next pop finds nothing. -/
def Obligations.RingKeepsTheLastCapacityBits : Prop :=
  ∀ (s : State) (bits : List Bool), s.ring.Wf s.cfg.cap → s.ring.count = 0 → bits.length = s.cfg.cap + 1 →
    (popTimes s.cfg.cap (pushAll bits s)).1 = bits.tail.map some ∧
    (pop (popTimes s.cfg.cap (pushAll bits s)).2).1 = none

/-! ### Rules about every instruction -/

/-- The transitions of `S.txn`, each with what takes it, in states within the counters' ranges (R35, I5): the table of
R88, which is the spec's own inference from R78 to R86, R116 and R133. -/
def Obligations.PhaseTransitionsAreThoseOfTheTable : Prop :=
  (∀ s t : State, s.txBit.toNat ≤ 8 → s.rxBit.toNat ≤ 16 → exec .poll s = .next t →
    t.txn = s.txn ∨
    (s.txn = 0 ∧ t.txn = 1) ∨
    (s.txn = 1 ∧ t.txn = 2 ∧ s.presSeen = true) ∨
    (s.txn = 1 ∧ t.txn = 8 ∧ s.presSeen = false ∧ s.retry = 0) ∨
    (s.txn = 2 ∧ t.txn = 3 ∧ s.txBit = 8) ∨
    (s.txn = 3 ∧ t.txn = 5 ∧ s.txBit = 0 ∧ s.settle = false ∧ s.convDone = true) ∨
    (s.txn = 3 ∧ t.txn = 4 ∧ s.txBit = 8 ∧ s.settle = true) ∨
    (s.txn = 4 ∧ t.txn = 0 ∧ s.rdPend = true ∧ s.ring.count ≠ 0 ∧ s.ring.buf[s.ring.tail.toNat]? = some true) ∨
    (s.txn = 5 ∧ t.txn = 6 ∧ s.txBit = 8) ∨
    (s.txn = 6 ∧ t.txn = 7 ∧ t.rxBit = 16) ∨
    (s.txn.toNat ≤ 6 ∧ t.txn = 8 ∧ s.cfg.wdtLimit ≠ 0 ∧ t.errcode = .stall)) ∧
  (∀ s t : State, exec .init s = .next t → t.txn = 0) ∧
  (∀ (i : Instr) (s t : State), (i.context = .isr ∨ (∃ off width, i = .memRead off width) ∨
      (∃ off width value, i = .memWrite off width value ∧ off ≠ 0)) →
    exec i s = .next t → t.txn = s.txn)

/-- R132: only INIT (as a stimulus or as the CTRL strobe) leaves Done or Error. -/
def Obligations.OnlyInitLeavesDoneOrError : Prop :=
  ∀ (i : Instr) (s t : State), s.txn = 7 ∨ s.txn = 8 → exec i s = .next t →
    t.txn = s.txn ∨ i = .init ∨ (∃ value, i = .memWrite 0 4 value ∧ value.getLsbD 0 = true)

/-- R33, R138, R149: a step in ISR context writes only the fields the ownership table gives it (and the overflow
flag and the log of R93 and R103); it clears busy and the window and never sets them, and never clears the presence
flag. -/
def Obligations.IsrContextWritesOnlyItsFields : Prop :=
  ∀ (i : Instr) (s t : State), i.context = .isr → exec i s = .next t →
    t = { s with busy := t.busy, presSeen := t.presSeen, pwin := t.pwin, ring := t.ring, drv := t.drv
                 tmr := t.tmr, ovr := t.ovr, log := t.log } ∧
    (t.busy = true → s.busy = true) ∧ (t.pwin = true → s.pwin = true) ∧
    (s.presSeen = true → t.presSeen = true) ∧ (t.drv = s.drv ∨ t.drv = .rel)

/-- R33, R24, R28: a step in poll context never writes the ring storage, never clears busy, never sets the presence
flag or the overflow flag, writes `head` only in the cursor reset of PollConversion, and writes the temperature only
in the first Done poll. -/
def Obligations.PollContextWritesOnlyItsFields : Prop :=
  ∀ (i : Instr) (s t : State), i.context = .poll → exec i s = .next t →
    t.ring.buf = s.ring.buf ∧ (s.busy = true → t.busy = true) ∧ (t.presSeen = true → s.presSeen = true) ∧
    (t.ovr = true → s.ovr = true) ∧ (t.ring.head = s.ring.head ∨ (s.txn = 4 ∧ t.ring.head = 0)) ∧
    (t.temp = s.temp ∨ (s.txn = 7 ∧ s.done = false)) ∧
    (∀ id, t.tmr.get id = s.tmr.get id ∨ ((s.tmr.get id).armed = false ∧ (t.tmr.get id).armed = true)) ∧
    t.cfg = s.cfg ∧ t.trace = s.trace ∧ t.pos = s.pos

/-- R17, R74: busy is set only in a step that arms a timer, and cleared only by a terminal event. -/
def Obligations.BusyIsSetWithAnArmAndClearedByATerminal : Prop :=
  ∀ (i : Instr) (s t : State), exec i s = .next t →
    (s.busy = false → t.busy = true → ∃ id, (s.tmr.get id).armed = false ∧ (t.tmr.get id).armed = true) ∧
    (s.busy = true → t.busy = false → i = .tendRst ∨ i = .tendWr ∨ i = .tendRd)

/-- R89, R73: a POLL arms at most one timer and disarms none, and in a line state that is busy it arms none. -/
def Obligations.PollPerformsAtMostOneAction : Prop :=
  ∀ s t : State, exec .poll s = .next t →
    (∀ id, (s.tmr.get id).armed = true → (t.tmr.get id).armed = true) ∧
    t.tmr.armedCount ≤ s.tmr.armedCount + 1 ∧
    (s.txn.toNat ≤ 6 → s.busy = true → t.tmr = s.tmr ∧ t.log = s.log)

/-- R135: `irq_out` rises only at a POLL that reports Done or Error, and falls only at INIT (by stimulus or CTRL
strobe). -/
def Obligations.InterruptRisesAtAReportAndFallsAtInit : Prop :=
  ∀ (i : Instr) (s t : State), exec i s = .next t →
    (irqOut s = false → irqOut t = true → (s.txn = 7 ∧ t.done = true) ∨ (s.txn = 8 ∧ t.err = true)) ∧
    (irqOut s = true → irqOut t = false →
      i = .init ∨ (∃ value, i = .memWrite 0 4 value ∧ value.getLsbD 0 = true))

/-- R121, R85, R86: a run that has ended well stays where it is under POLL. -/
def Obligations.EndedWellIsQuietUnderPoll : Prop :=
  ∀ s : State, s.endedWell = true → exec .poll s = .next s

/-- R141: a step of one line changes no other line's state. -/
def Obligations.LinesShareNoState : Prop :=
  ∀ (k : Nat) (ls ls' : Lines), stepLine k ls = some (.next ls') →
    ls'.length = ls.length ∧ (∀ j, j ≠ k → ls'[j]? = ls[j]?) ∧
    ∃ s t, ls[k]? = some s ∧ step s = .next t ∧ ls'[k]? = some t

/-! ### Invariants -/

/-- R35, R29: the invariant holds after power-on reset of any configuration, whatever R36 leaves unspecified. -/
def Obligations.InvariantHoldsAtPowerOn : Prop :=
  (∀ (cfg : Config) (u : Unspecified), (State.powerOn cfg u).Inv) ∧ State.reset.Inv

/-- R35, R29: every step keeps the invariant: busy is an armed timer and at most one is armed, the ring keeps its
form, the counters their ranges, underrun and overflow do not occur, and ILLEGAL_STATE and DOUBLE_ARM are
unreachable. -/
def Obligations.EveryStepKeepsTheInvariant : Prop :=
  ∀ s t : State, s.Inv → step s = .next t → t.Inv

/-- R101, R103, R110: in a reachable state only timer 2 can capture, and its capture samples the level the device
gives. -/
def Obligations.ReachableCaptureSamplesTheDevice : Prop :=
  ∀ (s : State) (level : Bool), s.Inv → s.fault = FaultSet.empty →
    exec (.tcapRst level) s = .fault .notEnabled ∧ exec (.tcapWr level) s = .fault .notEnabled ∧
    (s.tmr.rd.capPend = true → ∃ t, exec (.tcapRd level) s = .next t ∧ t.log = s.log ++ [.sample level] ∧
      t.ring.contents s.cfg.cap = [level] ∧ t.ovr = false)
end

