-- ==== Sys2Proof/Laws/State.lean ====
section
/-! SUPPORT. One lemma per field per named update of the state, so that no later proof unfolds a record update. -/

namespace Sys2Proof.Machine

@[simp] theorem emit_cfg (r : LogRec) (s : State) : (emit r s).cfg = s.cfg := rfl
@[simp] theorem emit_txn (r : LogRec) (s : State) : (emit r s).txn = s.txn := rfl
@[simp] theorem emit_busy (r : LogRec) (s : State) : (emit r s).busy = s.busy := rfl
@[simp] theorem emit_txBit (r : LogRec) (s : State) : (emit r s).txBit = s.txBit := rfl
@[simp] theorem emit_settle (r : LogRec) (s : State) : (emit r s).settle = s.settle := rfl
@[simp] theorem emit_rxBit (r : LogRec) (s : State) : (emit r s).rxBit = s.rxBit := rfl
@[simp] theorem emit_rdPend (r : LogRec) (s : State) : (emit r s).rdPend = s.rdPend := rfl
@[simp] theorem emit_acc (r : LogRec) (s : State) : (emit r s).acc = s.acc := rfl
@[simp] theorem emit_retry (r : LogRec) (s : State) : (emit r s).retry = s.retry := rfl
@[simp] theorem emit_presSeen (r : LogRec) (s : State) : (emit r s).presSeen = s.presSeen := rfl
@[simp] theorem emit_pwin (r : LogRec) (s : State) : (emit r s).pwin = s.pwin := rfl
@[simp] theorem emit_convDone (r : LogRec) (s : State) : (emit r s).convDone = s.convDone := rfl
@[simp] theorem emit_done (r : LogRec) (s : State) : (emit r s).done = s.done := rfl
@[simp] theorem emit_err (r : LogRec) (s : State) : (emit r s).err = s.err := rfl
@[simp] theorem emit_errcode (r : LogRec) (s : State) : (emit r s).errcode = s.errcode := rfl
@[simp] theorem emit_undr (r : LogRec) (s : State) : (emit r s).undr = s.undr := rfl
@[simp] theorem emit_ovr (r : LogRec) (s : State) : (emit r s).ovr = s.ovr := rfl
@[simp] theorem emit_wdt (r : LogRec) (s : State) : (emit r s).wdt = s.wdt := rfl
@[simp] theorem emit_temp (r : LogRec) (s : State) : (emit r s).temp = s.temp := rfl
@[simp] theorem emit_ring (r : LogRec) (s : State) : (emit r s).ring = s.ring := rfl
@[simp] theorem emit_drv (r : LogRec) (s : State) : (emit r s).drv = s.drv := rfl
@[simp] theorem emit_tmr (r : LogRec) (s : State) : (emit r s).tmr = s.tmr := rfl
@[simp] theorem emit_log (r : LogRec) (s : State) : (emit r s).log = s.log ++ [r] := rfl
@[simp] theorem emit_fault (r : LogRec) (s : State) : (emit r s).fault = s.fault := rfl
@[simp] theorem emit_trace (r : LogRec) (s : State) : (emit r s).trace = s.trace := rfl
@[simp] theorem emit_pos (r : LogRec) (s : State) : (emit r s).pos = s.pos := rfl
@[simp] theorem emit_busData (r : LogRec) (s : State) : (emit r s).busData = s.busData := rfl

@[simp] theorem lineDrive_cfg (high : Bool) (s : State) : (lineDrive high s).cfg = s.cfg := rfl
@[simp] theorem lineDrive_txn (high : Bool) (s : State) : (lineDrive high s).txn = s.txn := rfl
@[simp] theorem lineDrive_busy (high : Bool) (s : State) : (lineDrive high s).busy = s.busy := rfl
@[simp] theorem lineDrive_txBit (high : Bool) (s : State) : (lineDrive high s).txBit = s.txBit := rfl
@[simp] theorem lineDrive_settle (high : Bool) (s : State) : (lineDrive high s).settle = s.settle := rfl
@[simp] theorem lineDrive_rxBit (high : Bool) (s : State) : (lineDrive high s).rxBit = s.rxBit := rfl
@[simp] theorem lineDrive_rdPend (high : Bool) (s : State) : (lineDrive high s).rdPend = s.rdPend := rfl
@[simp] theorem lineDrive_acc (high : Bool) (s : State) : (lineDrive high s).acc = s.acc := rfl
@[simp] theorem lineDrive_retry (high : Bool) (s : State) : (lineDrive high s).retry = s.retry := rfl
@[simp] theorem lineDrive_presSeen (high : Bool) (s : State) : (lineDrive high s).presSeen = s.presSeen := rfl
@[simp] theorem lineDrive_pwin (high : Bool) (s : State) : (lineDrive high s).pwin = s.pwin := rfl
@[simp] theorem lineDrive_convDone (high : Bool) (s : State) : (lineDrive high s).convDone = s.convDone := rfl
@[simp] theorem lineDrive_done (high : Bool) (s : State) : (lineDrive high s).done = s.done := rfl
@[simp] theorem lineDrive_err (high : Bool) (s : State) : (lineDrive high s).err = s.err := rfl
@[simp] theorem lineDrive_errcode (high : Bool) (s : State) : (lineDrive high s).errcode = s.errcode := rfl
@[simp] theorem lineDrive_undr (high : Bool) (s : State) : (lineDrive high s).undr = s.undr := rfl
@[simp] theorem lineDrive_ovr (high : Bool) (s : State) : (lineDrive high s).ovr = s.ovr := rfl
@[simp] theorem lineDrive_wdt (high : Bool) (s : State) : (lineDrive high s).wdt = s.wdt := rfl
@[simp] theorem lineDrive_temp (high : Bool) (s : State) : (lineDrive high s).temp = s.temp := rfl
@[simp] theorem lineDrive_ring (high : Bool) (s : State) : (lineDrive high s).ring = s.ring := rfl
@[simp] theorem lineDrive_drv (high : Bool) (s : State) : (lineDrive high s).drv = if high then .high else .low := rfl
@[simp] theorem lineDrive_tmr (high : Bool) (s : State) : (lineDrive high s).tmr = s.tmr := rfl
@[simp] theorem lineDrive_log (high : Bool) (s : State) : (lineDrive high s).log = s.log := rfl
@[simp] theorem lineDrive_fault (high : Bool) (s : State) : (lineDrive high s).fault = s.fault := rfl
@[simp] theorem lineDrive_trace (high : Bool) (s : State) : (lineDrive high s).trace = s.trace := rfl
@[simp] theorem lineDrive_pos (high : Bool) (s : State) : (lineDrive high s).pos = s.pos := rfl
@[simp] theorem lineDrive_busData (high : Bool) (s : State) : (lineDrive high s).busData = s.busData := rfl

@[simp] theorem lineRelease_cfg (s : State) : (lineRelease s).cfg = s.cfg := rfl
@[simp] theorem lineRelease_txn (s : State) : (lineRelease s).txn = s.txn := rfl
@[simp] theorem lineRelease_busy (s : State) : (lineRelease s).busy = s.busy := rfl
@[simp] theorem lineRelease_txBit (s : State) : (lineRelease s).txBit = s.txBit := rfl
@[simp] theorem lineRelease_settle (s : State) : (lineRelease s).settle = s.settle := rfl
@[simp] theorem lineRelease_rxBit (s : State) : (lineRelease s).rxBit = s.rxBit := rfl
@[simp] theorem lineRelease_rdPend (s : State) : (lineRelease s).rdPend = s.rdPend := rfl
@[simp] theorem lineRelease_acc (s : State) : (lineRelease s).acc = s.acc := rfl
@[simp] theorem lineRelease_retry (s : State) : (lineRelease s).retry = s.retry := rfl
@[simp] theorem lineRelease_presSeen (s : State) : (lineRelease s).presSeen = s.presSeen := rfl
@[simp] theorem lineRelease_pwin (s : State) : (lineRelease s).pwin = s.pwin := rfl
@[simp] theorem lineRelease_convDone (s : State) : (lineRelease s).convDone = s.convDone := rfl
@[simp] theorem lineRelease_done (s : State) : (lineRelease s).done = s.done := rfl
@[simp] theorem lineRelease_err (s : State) : (lineRelease s).err = s.err := rfl
@[simp] theorem lineRelease_errcode (s : State) : (lineRelease s).errcode = s.errcode := rfl
@[simp] theorem lineRelease_undr (s : State) : (lineRelease s).undr = s.undr := rfl
@[simp] theorem lineRelease_ovr (s : State) : (lineRelease s).ovr = s.ovr := rfl
@[simp] theorem lineRelease_wdt (s : State) : (lineRelease s).wdt = s.wdt := rfl
@[simp] theorem lineRelease_temp (s : State) : (lineRelease s).temp = s.temp := rfl
@[simp] theorem lineRelease_ring (s : State) : (lineRelease s).ring = s.ring := rfl
@[simp] theorem lineRelease_drv (s : State) : (lineRelease s).drv = .rel := rfl
@[simp] theorem lineRelease_tmr (s : State) : (lineRelease s).tmr = s.tmr := rfl
@[simp] theorem lineRelease_log (s : State) : (lineRelease s).log = s.log := rfl
@[simp] theorem lineRelease_fault (s : State) : (lineRelease s).fault = s.fault := rfl
@[simp] theorem lineRelease_trace (s : State) : (lineRelease s).trace = s.trace := rfl
@[simp] theorem lineRelease_pos (s : State) : (lineRelease s).pos = s.pos := rfl
@[simp] theorem lineRelease_busData (s : State) : (lineRelease s).busData = s.busData := rfl

@[simp] theorem flush_cfg (s : State) : (flush s).cfg = s.cfg := rfl
@[simp] theorem flush_txn (s : State) : (flush s).txn = s.txn := rfl
@[simp] theorem flush_busy (s : State) : (flush s).busy = s.busy := rfl
@[simp] theorem flush_txBit (s : State) : (flush s).txBit = s.txBit := rfl
@[simp] theorem flush_settle (s : State) : (flush s).settle = s.settle := rfl
@[simp] theorem flush_rxBit (s : State) : (flush s).rxBit = s.rxBit := rfl
@[simp] theorem flush_rdPend (s : State) : (flush s).rdPend = s.rdPend := rfl
@[simp] theorem flush_acc (s : State) : (flush s).acc = s.acc := rfl
@[simp] theorem flush_retry (s : State) : (flush s).retry = s.retry := rfl
@[simp] theorem flush_presSeen (s : State) : (flush s).presSeen = s.presSeen := rfl
@[simp] theorem flush_pwin (s : State) : (flush s).pwin = s.pwin := rfl
@[simp] theorem flush_convDone (s : State) : (flush s).convDone = s.convDone := rfl
@[simp] theorem flush_done (s : State) : (flush s).done = s.done := rfl
@[simp] theorem flush_err (s : State) : (flush s).err = s.err := rfl
@[simp] theorem flush_errcode (s : State) : (flush s).errcode = s.errcode := rfl
@[simp] theorem flush_undr (s : State) : (flush s).undr = s.undr := rfl
@[simp] theorem flush_ovr (s : State) : (flush s).ovr = s.ovr := rfl
@[simp] theorem flush_wdt (s : State) : (flush s).wdt = s.wdt := rfl
@[simp] theorem flush_temp (s : State) : (flush s).temp = s.temp := rfl
@[simp] theorem flush_ring (s : State) : (flush s).ring = { s.ring with tail := s.ring.head, count := 0 } := rfl
@[simp] theorem flush_drv (s : State) : (flush s).drv = s.drv := rfl
@[simp] theorem flush_tmr (s : State) : (flush s).tmr = s.tmr := rfl
@[simp] theorem flush_log (s : State) : (flush s).log = s.log := rfl
@[simp] theorem flush_fault (s : State) : (flush s).fault = s.fault := rfl
@[simp] theorem flush_trace (s : State) : (flush s).trace = s.trace := rfl
@[simp] theorem flush_pos (s : State) : (flush s).pos = s.pos := rfl
@[simp] theorem flush_busData (s : State) : (flush s).busData = s.busData := rfl

@[simp] theorem resetCursors_cfg (s : State) : (resetCursors s).cfg = s.cfg := rfl
@[simp] theorem resetCursors_txn (s : State) : (resetCursors s).txn = s.txn := rfl
@[simp] theorem resetCursors_busy (s : State) : (resetCursors s).busy = s.busy := rfl
@[simp] theorem resetCursors_txBit (s : State) : (resetCursors s).txBit = s.txBit := rfl
@[simp] theorem resetCursors_settle (s : State) : (resetCursors s).settle = s.settle := rfl
@[simp] theorem resetCursors_rxBit (s : State) : (resetCursors s).rxBit = s.rxBit := rfl
@[simp] theorem resetCursors_rdPend (s : State) : (resetCursors s).rdPend = s.rdPend := rfl
@[simp] theorem resetCursors_acc (s : State) : (resetCursors s).acc = s.acc := rfl
@[simp] theorem resetCursors_retry (s : State) : (resetCursors s).retry = s.retry := rfl
@[simp] theorem resetCursors_presSeen (s : State) : (resetCursors s).presSeen = s.presSeen := rfl
@[simp] theorem resetCursors_pwin (s : State) : (resetCursors s).pwin = s.pwin := rfl
@[simp] theorem resetCursors_convDone (s : State) : (resetCursors s).convDone = s.convDone := rfl
@[simp] theorem resetCursors_done (s : State) : (resetCursors s).done = s.done := rfl
@[simp] theorem resetCursors_err (s : State) : (resetCursors s).err = s.err := rfl
@[simp] theorem resetCursors_errcode (s : State) : (resetCursors s).errcode = s.errcode := rfl
@[simp] theorem resetCursors_undr (s : State) : (resetCursors s).undr = s.undr := rfl
@[simp] theorem resetCursors_ovr (s : State) : (resetCursors s).ovr = s.ovr := rfl
@[simp] theorem resetCursors_wdt (s : State) : (resetCursors s).wdt = s.wdt := rfl
@[simp] theorem resetCursors_temp (s : State) : (resetCursors s).temp = s.temp := rfl
@[simp] theorem resetCursors_ring (s : State) : (resetCursors s).ring = { s.ring with head := 0, tail := 0, count := 0 } := rfl
@[simp] theorem resetCursors_drv (s : State) : (resetCursors s).drv = s.drv := rfl
@[simp] theorem resetCursors_tmr (s : State) : (resetCursors s).tmr = s.tmr := rfl
@[simp] theorem resetCursors_log (s : State) : (resetCursors s).log = s.log := rfl
@[simp] theorem resetCursors_fault (s : State) : (resetCursors s).fault = s.fault := rfl
@[simp] theorem resetCursors_trace (s : State) : (resetCursors s).trace = s.trace := rfl
@[simp] theorem resetCursors_pos (s : State) : (resetCursors s).pos = s.pos := rfl
@[simp] theorem resetCursors_busData (s : State) : (resetCursors s).busData = s.busData := rfl

@[simp] theorem push_cfg (b : Bool) (s : State) : (push b s).cfg = s.cfg := rfl
@[simp] theorem push_txn (b : Bool) (s : State) : (push b s).txn = s.txn := rfl
@[simp] theorem push_busy (b : Bool) (s : State) : (push b s).busy = s.busy := rfl
@[simp] theorem push_txBit (b : Bool) (s : State) : (push b s).txBit = s.txBit := rfl
@[simp] theorem push_settle (b : Bool) (s : State) : (push b s).settle = s.settle := rfl
@[simp] theorem push_rxBit (b : Bool) (s : State) : (push b s).rxBit = s.rxBit := rfl
@[simp] theorem push_rdPend (b : Bool) (s : State) : (push b s).rdPend = s.rdPend := rfl
@[simp] theorem push_acc (b : Bool) (s : State) : (push b s).acc = s.acc := rfl
@[simp] theorem push_retry (b : Bool) (s : State) : (push b s).retry = s.retry := rfl
@[simp] theorem push_presSeen (b : Bool) (s : State) : (push b s).presSeen = s.presSeen := rfl
@[simp] theorem push_pwin (b : Bool) (s : State) : (push b s).pwin = s.pwin := rfl
@[simp] theorem push_convDone (b : Bool) (s : State) : (push b s).convDone = s.convDone := rfl
@[simp] theorem push_done (b : Bool) (s : State) : (push b s).done = s.done := rfl
@[simp] theorem push_err (b : Bool) (s : State) : (push b s).err = s.err := rfl
@[simp] theorem push_errcode (b : Bool) (s : State) : (push b s).errcode = s.errcode := rfl
@[simp] theorem push_undr (b : Bool) (s : State) : (push b s).undr = s.undr := rfl
@[simp] theorem push_ovr (b : Bool) (s : State) : (push b s).ovr = (s.ovr || s.ring.isFull s.cfg.cap) := rfl
@[simp] theorem push_wdt (b : Bool) (s : State) : (push b s).wdt = s.wdt := rfl
@[simp] theorem push_temp (b : Bool) (s : State) : (push b s).temp = s.temp := rfl
@[simp] theorem push_ring (b : Bool) (s : State) : (push b s).ring = s.ring.push s.cfg.cap b := rfl
@[simp] theorem push_drv (b : Bool) (s : State) : (push b s).drv = s.drv := rfl
@[simp] theorem push_tmr (b : Bool) (s : State) : (push b s).tmr = s.tmr := rfl
@[simp] theorem push_log (b : Bool) (s : State) : (push b s).log = s.log := rfl
@[simp] theorem push_fault (b : Bool) (s : State) : (push b s).fault = s.fault := rfl
@[simp] theorem push_trace (b : Bool) (s : State) : (push b s).trace = s.trace := rfl
@[simp] theorem push_pos (b : Bool) (s : State) : (push b s).pos = s.pos := rfl
@[simp] theorem push_busData (b : Bool) (s : State) : (push b s).busData = s.busData := rfl

@[simp] theorem errEntry_cfg (c : ErrCode) (s : State) : (errEntry c s).cfg = s.cfg := rfl
@[simp] theorem errEntry_txn (c : ErrCode) (s : State) : (errEntry c s).txn = 8 := rfl
@[simp] theorem errEntry_busy (c : ErrCode) (s : State) : (errEntry c s).busy = s.busy := rfl
@[simp] theorem errEntry_txBit (c : ErrCode) (s : State) : (errEntry c s).txBit = s.txBit := rfl
@[simp] theorem errEntry_settle (c : ErrCode) (s : State) : (errEntry c s).settle = s.settle := rfl
@[simp] theorem errEntry_rxBit (c : ErrCode) (s : State) : (errEntry c s).rxBit = s.rxBit := rfl
@[simp] theorem errEntry_rdPend (c : ErrCode) (s : State) : (errEntry c s).rdPend = s.rdPend := rfl
@[simp] theorem errEntry_acc (c : ErrCode) (s : State) : (errEntry c s).acc = s.acc := rfl
@[simp] theorem errEntry_retry (c : ErrCode) (s : State) : (errEntry c s).retry = s.retry := rfl
@[simp] theorem errEntry_presSeen (c : ErrCode) (s : State) : (errEntry c s).presSeen = s.presSeen := rfl
@[simp] theorem errEntry_pwin (c : ErrCode) (s : State) : (errEntry c s).pwin = s.pwin := rfl
@[simp] theorem errEntry_convDone (c : ErrCode) (s : State) : (errEntry c s).convDone = s.convDone := rfl
@[simp] theorem errEntry_done (c : ErrCode) (s : State) : (errEntry c s).done = s.done := rfl
@[simp] theorem errEntry_err (c : ErrCode) (s : State) : (errEntry c s).err = s.err := rfl
@[simp] theorem errEntry_errcode (c : ErrCode) (s : State) : (errEntry c s).errcode = c := rfl
@[simp] theorem errEntry_undr (c : ErrCode) (s : State) : (errEntry c s).undr = s.undr := rfl
@[simp] theorem errEntry_ovr (c : ErrCode) (s : State) : (errEntry c s).ovr = s.ovr := rfl
@[simp] theorem errEntry_wdt (c : ErrCode) (s : State) : (errEntry c s).wdt = s.wdt := rfl
@[simp] theorem errEntry_temp (c : ErrCode) (s : State) : (errEntry c s).temp = s.temp := rfl
@[simp] theorem errEntry_ring (c : ErrCode) (s : State) : (errEntry c s).ring = s.ring := rfl
@[simp] theorem errEntry_drv (c : ErrCode) (s : State) : (errEntry c s).drv = .rel := rfl
@[simp] theorem errEntry_tmr (c : ErrCode) (s : State) : (errEntry c s).tmr = s.tmr := rfl
@[simp] theorem errEntry_log (c : ErrCode) (s : State) : (errEntry c s).log = s.log := rfl
@[simp] theorem errEntry_fault (c : ErrCode) (s : State) : (errEntry c s).fault = s.fault := rfl
@[simp] theorem errEntry_trace (c : ErrCode) (s : State) : (errEntry c s).trace = s.trace := rfl
@[simp] theorem errEntry_pos (c : ErrCode) (s : State) : (errEntry c s).pos = s.pos := rfl
@[simp] theorem errEntry_busData (c : ErrCode) (s : State) : (errEntry c s).busData = s.busData := rfl

@[simp] theorem initEntry_cfg (s : State) : (initEntry s).cfg = s.cfg := rfl
@[simp] theorem initEntry_txn (s : State) : (initEntry s).txn = 0 := rfl
@[simp] theorem initEntry_busy (s : State) : (initEntry s).busy = s.busy := rfl
@[simp] theorem initEntry_txBit (s : State) : (initEntry s).txBit = 0 := rfl
@[simp] theorem initEntry_settle (s : State) : (initEntry s).settle = false := rfl
@[simp] theorem initEntry_rxBit (s : State) : (initEntry s).rxBit = 0 := rfl
@[simp] theorem initEntry_rdPend (s : State) : (initEntry s).rdPend = false := rfl
@[simp] theorem initEntry_acc (s : State) : (initEntry s).acc = 0 := rfl
@[simp] theorem initEntry_retry (s : State) : (initEntry s).retry = s.retry := rfl
@[simp] theorem initEntry_presSeen (s : State) : (initEntry s).presSeen = false := rfl
@[simp] theorem initEntry_pwin (s : State) : (initEntry s).pwin = s.pwin := rfl
@[simp] theorem initEntry_convDone (s : State) : (initEntry s).convDone = false := rfl
@[simp] theorem initEntry_done (s : State) : (initEntry s).done = false := rfl
@[simp] theorem initEntry_err (s : State) : (initEntry s).err = false := rfl
@[simp] theorem initEntry_errcode (s : State) : (initEntry s).errcode = .none := rfl
@[simp] theorem initEntry_undr (s : State) : (initEntry s).undr = false := rfl
@[simp] theorem initEntry_ovr (s : State) : (initEntry s).ovr = false := rfl
@[simp] theorem initEntry_wdt (s : State) : (initEntry s).wdt = 0 := rfl
@[simp] theorem initEntry_temp (s : State) : (initEntry s).temp = s.temp := rfl
@[simp] theorem initEntry_ring (s : State) : (initEntry s).ring = s.ring := rfl
@[simp] theorem initEntry_drv (s : State) : (initEntry s).drv = s.drv := rfl
@[simp] theorem initEntry_tmr (s : State) : (initEntry s).tmr = s.tmr := rfl
@[simp] theorem initEntry_log (s : State) : (initEntry s).log = s.log := rfl
@[simp] theorem initEntry_fault (s : State) : (initEntry s).fault = s.fault := rfl
@[simp] theorem initEntry_trace (s : State) : (initEntry s).trace = s.trace := rfl
@[simp] theorem initEntry_pos (s : State) : (initEntry s).pos = s.pos := rfl
@[simp] theorem initEntry_busData (s : State) : (initEntry s).busData = s.busData := rfl

@[simp] theorem State.raise_cfg (r : FaultReason) (s : State) : (State.raise r s).cfg = s.cfg := rfl
@[simp] theorem State.raise_txn (r : FaultReason) (s : State) : (State.raise r s).txn = s.txn := rfl
@[simp] theorem State.raise_busy (r : FaultReason) (s : State) : (State.raise r s).busy = s.busy := rfl
@[simp] theorem State.raise_txBit (r : FaultReason) (s : State) : (State.raise r s).txBit = s.txBit := rfl
@[simp] theorem State.raise_settle (r : FaultReason) (s : State) : (State.raise r s).settle = s.settle := rfl
@[simp] theorem State.raise_rxBit (r : FaultReason) (s : State) : (State.raise r s).rxBit = s.rxBit := rfl
@[simp] theorem State.raise_rdPend (r : FaultReason) (s : State) : (State.raise r s).rdPend = s.rdPend := rfl
@[simp] theorem State.raise_acc (r : FaultReason) (s : State) : (State.raise r s).acc = s.acc := rfl
@[simp] theorem State.raise_retry (r : FaultReason) (s : State) : (State.raise r s).retry = s.retry := rfl
@[simp] theorem State.raise_presSeen (r : FaultReason) (s : State) : (State.raise r s).presSeen = s.presSeen := rfl
@[simp] theorem State.raise_pwin (r : FaultReason) (s : State) : (State.raise r s).pwin = s.pwin := rfl
@[simp] theorem State.raise_convDone (r : FaultReason) (s : State) : (State.raise r s).convDone = s.convDone := rfl
@[simp] theorem State.raise_done (r : FaultReason) (s : State) : (State.raise r s).done = s.done := rfl
@[simp] theorem State.raise_err (r : FaultReason) (s : State) : (State.raise r s).err = s.err := rfl
@[simp] theorem State.raise_errcode (r : FaultReason) (s : State) : (State.raise r s).errcode = s.errcode := rfl
@[simp] theorem State.raise_undr (r : FaultReason) (s : State) : (State.raise r s).undr = s.undr := rfl
@[simp] theorem State.raise_ovr (r : FaultReason) (s : State) : (State.raise r s).ovr = s.ovr := rfl
@[simp] theorem State.raise_wdt (r : FaultReason) (s : State) : (State.raise r s).wdt = s.wdt := rfl
@[simp] theorem State.raise_temp (r : FaultReason) (s : State) : (State.raise r s).temp = s.temp := rfl
@[simp] theorem State.raise_ring (r : FaultReason) (s : State) : (State.raise r s).ring = s.ring := rfl
@[simp] theorem State.raise_drv (r : FaultReason) (s : State) : (State.raise r s).drv = s.drv := rfl
@[simp] theorem State.raise_tmr (r : FaultReason) (s : State) : (State.raise r s).tmr = s.tmr := rfl
@[simp] theorem State.raise_log (r : FaultReason) (s : State) : (State.raise r s).log = s.log := rfl
@[simp] theorem State.raise_fault (r : FaultReason) (s : State) : (State.raise r s).fault = s.fault.insert r := rfl
@[simp] theorem State.raise_trace (r : FaultReason) (s : State) : (State.raise r s).trace = s.trace := rfl
@[simp] theorem State.raise_pos (r : FaultReason) (s : State) : (State.raise r s).pos = s.pos := rfl
@[simp] theorem State.raise_busData (r : FaultReason) (s : State) : (State.raise r s).busData = s.busData := rfl

@[simp] theorem State.advance_cfg (rest : List Input) (s : State) : (State.advance rest s).cfg = s.cfg := rfl
@[simp] theorem State.advance_txn (rest : List Input) (s : State) : (State.advance rest s).txn = s.txn := rfl
@[simp] theorem State.advance_busy (rest : List Input) (s : State) : (State.advance rest s).busy = s.busy := rfl
@[simp] theorem State.advance_txBit (rest : List Input) (s : State) : (State.advance rest s).txBit = s.txBit := rfl
@[simp] theorem State.advance_settle (rest : List Input) (s : State) : (State.advance rest s).settle = s.settle := rfl
@[simp] theorem State.advance_rxBit (rest : List Input) (s : State) : (State.advance rest s).rxBit = s.rxBit := rfl
@[simp] theorem State.advance_rdPend (rest : List Input) (s : State) : (State.advance rest s).rdPend = s.rdPend := rfl
@[simp] theorem State.advance_acc (rest : List Input) (s : State) : (State.advance rest s).acc = s.acc := rfl
@[simp] theorem State.advance_retry (rest : List Input) (s : State) : (State.advance rest s).retry = s.retry := rfl
@[simp] theorem State.advance_presSeen (rest : List Input) (s : State) : (State.advance rest s).presSeen = s.presSeen := rfl
@[simp] theorem State.advance_pwin (rest : List Input) (s : State) : (State.advance rest s).pwin = s.pwin := rfl
@[simp] theorem State.advance_convDone (rest : List Input) (s : State) : (State.advance rest s).convDone = s.convDone := rfl
@[simp] theorem State.advance_done (rest : List Input) (s : State) : (State.advance rest s).done = s.done := rfl
@[simp] theorem State.advance_err (rest : List Input) (s : State) : (State.advance rest s).err = s.err := rfl
@[simp] theorem State.advance_errcode (rest : List Input) (s : State) : (State.advance rest s).errcode = s.errcode := rfl
@[simp] theorem State.advance_undr (rest : List Input) (s : State) : (State.advance rest s).undr = s.undr := rfl
@[simp] theorem State.advance_ovr (rest : List Input) (s : State) : (State.advance rest s).ovr = s.ovr := rfl
@[simp] theorem State.advance_wdt (rest : List Input) (s : State) : (State.advance rest s).wdt = s.wdt := rfl
@[simp] theorem State.advance_temp (rest : List Input) (s : State) : (State.advance rest s).temp = s.temp := rfl
@[simp] theorem State.advance_ring (rest : List Input) (s : State) : (State.advance rest s).ring = s.ring := rfl
@[simp] theorem State.advance_drv (rest : List Input) (s : State) : (State.advance rest s).drv = s.drv := rfl
@[simp] theorem State.advance_tmr (rest : List Input) (s : State) : (State.advance rest s).tmr = s.tmr := rfl
@[simp] theorem State.advance_log (rest : List Input) (s : State) : (State.advance rest s).log = s.log := rfl
@[simp] theorem State.advance_fault (rest : List Input) (s : State) : (State.advance rest s).fault = s.fault := rfl
@[simp] theorem State.advance_trace (rest : List Input) (s : State) : (State.advance rest s).trace = rest := rfl
@[simp] theorem State.advance_pos (rest : List Input) (s : State) : (State.advance rest s).pos = s.pos + 1 := rfl
@[simp] theorem State.advance_busData (rest : List Input) (s : State) : (State.advance rest s).busData = s.busData := rfl

@[simp] theorem State.deliver_cfg (i : Input) (s : State) : (State.deliver i s).cfg = s.cfg := rfl
@[simp] theorem State.deliver_txn (i : Input) (s : State) : (State.deliver i s).txn = s.txn := rfl
@[simp] theorem State.deliver_busy (i : Input) (s : State) : (State.deliver i s).busy = s.busy := rfl
@[simp] theorem State.deliver_txBit (i : Input) (s : State) : (State.deliver i s).txBit = s.txBit := rfl
@[simp] theorem State.deliver_settle (i : Input) (s : State) : (State.deliver i s).settle = s.settle := rfl
@[simp] theorem State.deliver_rxBit (i : Input) (s : State) : (State.deliver i s).rxBit = s.rxBit := rfl
@[simp] theorem State.deliver_rdPend (i : Input) (s : State) : (State.deliver i s).rdPend = s.rdPend := rfl
@[simp] theorem State.deliver_acc (i : Input) (s : State) : (State.deliver i s).acc = s.acc := rfl
@[simp] theorem State.deliver_retry (i : Input) (s : State) : (State.deliver i s).retry = s.retry := rfl
@[simp] theorem State.deliver_presSeen (i : Input) (s : State) : (State.deliver i s).presSeen = s.presSeen := rfl
@[simp] theorem State.deliver_pwin (i : Input) (s : State) : (State.deliver i s).pwin = s.pwin := rfl
@[simp] theorem State.deliver_convDone (i : Input) (s : State) : (State.deliver i s).convDone = s.convDone := rfl
@[simp] theorem State.deliver_done (i : Input) (s : State) : (State.deliver i s).done = s.done := rfl
@[simp] theorem State.deliver_err (i : Input) (s : State) : (State.deliver i s).err = s.err := rfl
@[simp] theorem State.deliver_errcode (i : Input) (s : State) : (State.deliver i s).errcode = s.errcode := rfl
@[simp] theorem State.deliver_undr (i : Input) (s : State) : (State.deliver i s).undr = s.undr := rfl
@[simp] theorem State.deliver_ovr (i : Input) (s : State) : (State.deliver i s).ovr = s.ovr := rfl
@[simp] theorem State.deliver_wdt (i : Input) (s : State) : (State.deliver i s).wdt = s.wdt := rfl
@[simp] theorem State.deliver_temp (i : Input) (s : State) : (State.deliver i s).temp = s.temp := rfl
@[simp] theorem State.deliver_ring (i : Input) (s : State) : (State.deliver i s).ring = s.ring := rfl
@[simp] theorem State.deliver_drv (i : Input) (s : State) : (State.deliver i s).drv = s.drv := rfl
@[simp] theorem State.deliver_tmr (i : Input) (s : State) : (State.deliver i s).tmr = s.tmr := rfl
@[simp] theorem State.deliver_log (i : Input) (s : State) : (State.deliver i s).log = s.log := rfl
@[simp] theorem State.deliver_fault (i : Input) (s : State) : (State.deliver i s).fault = s.fault := rfl
@[simp] theorem State.deliver_trace (i : Input) (s : State) : (State.deliver i s).trace = i :: s.trace := rfl
@[simp] theorem State.deliver_pos (i : Input) (s : State) : (State.deliver i s).pos = s.pos := rfl
@[simp] theorem State.deliver_busData (i : Input) (s : State) : (State.deliver i s).busData = s.busData := rfl

end Sys2Proof.Machine
end

