-- ==== Sys2Proof/Laws/Ops.lean ====
section
/-! SUPPORT. One lemma per shared operation that says everything it can do; proofs cite these and do not unfold
the operations. -/

namespace Sys2Proof.Machine

/-! ### Steps of the block -/

theorem perform_eq_next_iff {f : State → Except FaultReason State} {s t : State} :
    perform f s = .next t ↔
      s.fault = FaultSet.empty ∧ (f s = .ok t ∨ ∃ r, f s = .error r ∧ t = s.raise r) := by
  unfold perform
  split
  · cases h : f s <;> simp_all [eq_comm]
  · simp_all

theorem perform_of_ok {f : State → Except FaultReason State} {s t : State} (hs : s.fault = FaultSet.empty)
    (h : f s = .ok t) : perform f s = .next t := by
  simp [perform, hs, h]

theorem perform_of_error {f : State → Except FaultReason State} {s : State} {r : FaultReason}
    (hs : s.fault = FaultSet.empty) (h : f s = .error r) : perform f s = .next (s.raise r) := by
  simp [perform, hs, h]

theorem perform_of_faulted {f : State → Except FaultReason State} {s : State} (hs : s.fault ≠ FaultSet.empty) :
    perform f s = .fault .quiescent := by
  simp [perform, hs]

theorem performWhen_eq_next_iff {ok : Bool} {stop : Host.Outcome State Fault Refusal}
    {f : State → Except FaultReason State} {s t : State} (hstop : ∀ u, stop ≠ .next u) :
    performWhen ok stop f s = .next t ↔ ok = true ∧ perform f s = .next t := by
  unfold performWhen
  split
  · cases ok <;> simp_all
  · simp_all [perform]

theorem performWhen_of_ok {stop : Host.Outcome State Fault Refusal} {f : State → Except FaultReason State}
    {s : State} {ok : Bool} (h : ok = true) : performWhen ok stop f s = perform f s := by
  subst h
  unfold performWhen perform
  split <;> rfl

theorem performWhen_of_not {stop : Host.Outcome State Fault Refusal} {f : State → Except FaultReason State}
    {s : State} {ok : Bool} (hs : s.fault = FaultSet.empty) (h : ok = false) :
    performWhen ok stop f s = stop := by
  simp [performWhen, hs, h]

theorem performWhen_of_faulted {stop : Host.Outcome State Fault Refusal} {f : State → Except FaultReason State}
    {s : State} {ok : Bool} (hs : s.fault ≠ FaultSet.empty) : performWhen ok stop f s = .fault .quiescent := by
  simp [performWhen, hs]

theorem performArm_eq_next_iff {p : Phase} {f : State → Except FaultReason State} {s t : State} :
    performArm p f s = .next t ↔ s.txn = p.code ∧ perform f s = .next t := by
  unfold performArm
  rw [performWhen_eq_next_iff (by simp)]
  simp

theorem performArm_of_selected {p : Phase} {f : State → Except FaultReason State} {s : State}
    (h : s.txn = p.code) : performArm p f s = perform f s :=
  performWhen_of_ok (by simp [h])

/-! ### Timers -/

theorem arm_of_idle {id : TimerId} {period : Nat} {cmp : Option Nat} {s : State}
    (h : (s.tmr.get id).armed = false) :
    arm id period cmp s =
      .ok { s with tmr := s.tmr.set { armed := true, capPend := cmp.isSome, period := period, cmp := cmp } id } :=
  if_neg (by rw [h]; exact Bool.false_ne_true)

theorem arm_of_armed {id : TimerId} {period : Nat} {cmp : Option Nat} {s : State}
    (h : (s.tmr.get id).armed = true) : arm id period cmp s = .error .doubleArm :=
  if_pos h

theorem arm_eq_ok_iff {id : TimerId} {period : Nat} {cmp : Option Nat} {s t : State} :
    arm id period cmp s = .ok t ↔
      (s.tmr.get id).armed = false ∧
      t = { s with tmr := s.tmr.set { armed := true, capPend := cmp.isSome, period := period, cmp := cmp } id } := by
  cases h : (s.tmr.get id).armed
  · rw [arm_of_idle h, Except.ok.injEq, eq_comm]
    simp only [true_and]
  · rw [arm_of_armed h]
    simp only [reduceCtorEq, Bool.true_eq_false, false_and]

/-! ### Slots -/

theorem writeSlot_of_idle {c : Byte} {s : State} (h : s.tmr.wr.armed = false) :
    writeSlot c s = .ok { s with
      drv := if transmitBit c s.txBit then .high else .low
      busy := true
      tmr := { s.tmr with wr := { armed := true, capPend := false, period := s.cfg.tWriteSlot, cmp := none } }
      txBit := s.txBit + 1
      log := s.log ++ [.wbit (transmitBit c s.txBit)] } := by
  simp only [writeSlot]
  rw [arm_of_idle (by exact h)]
  rfl

theorem writeSlot_of_armed {c : Byte} {s : State} (h : s.tmr.wr.armed = true) :
    writeSlot c s = .error .doubleArm := by
  simp only [writeSlot]
  rw [arm_of_armed (by exact h)]

theorem writeSlot_eq_ok_iff {c : Byte} {s t : State} :
    writeSlot c s = .ok t ↔ s.tmr.wr.armed = false ∧
      t = { s with
        drv := if transmitBit c s.txBit then .high else .low
        busy := true
        tmr := { s.tmr with wr := { armed := true, capPend := false, period := s.cfg.tWriteSlot, cmp := none } }
        txBit := s.txBit + 1
        log := s.log ++ [.wbit (transmitBit c s.txBit)] } := by
  cases h : s.tmr.wr.armed
  · rw [writeSlot_of_idle h, Except.ok.injEq, eq_comm]
    simp only [true_and]
  · rw [writeSlot_of_armed h]
    simp only [reduceCtorEq, Bool.true_eq_false, false_and]

theorem issueRead_of_idle {s : State} (h : s.tmr.rd.armed = false) :
    issueRead s = .ok { s with
      ring := { s.ring with tail := s.ring.head, count := 0 }
      drv := .rel
      rdPend := true
      busy := true
      tmr := { s.tmr with rd := { armed := true, capPend := true, period := s.cfg.tReadSlot,
                                  cmp := some s.cfg.tReadSample } }
      log := s.log ++ [.rslot] } := by
  simp only [issueRead]
  rw [arm_of_idle (by exact h)]
  rfl

theorem issueRead_of_armed {s : State} (h : s.tmr.rd.armed = true) : issueRead s = .error .doubleArm := by
  simp only [issueRead]
  rw [arm_of_armed (by exact h)]

theorem issueRead_eq_ok_iff {s t : State} :
    issueRead s = .ok t ↔ s.tmr.rd.armed = false ∧
      t = { s with
        ring := { s.ring with tail := s.ring.head, count := 0 }
        drv := .rel
        rdPend := true
        busy := true
        tmr := { s.tmr with rd := { armed := true, capPend := true, period := s.cfg.tReadSlot,
                                    cmp := some s.cfg.tReadSample } }
        log := s.log ++ [.rslot] } := by
  cases h : s.tmr.rd.armed
  · rw [issueRead_of_idle h, Except.ok.injEq, eq_comm]
    simp only [true_and]
  · rw [issueRead_of_armed h]
    simp only [reduceCtorEq, Bool.true_eq_false, false_and]

theorem pop_of_empty {s : State} (h : s.ring.count = 0) : pop s = (none, { s with undr := true }) := by
  rw [pop, if_pos h]

theorem pop_of_nonempty {s : State} (h : s.ring.count ≠ 0) :
    pop s = (some s.ring.oldest, { s with ring := s.ring.dropOldest s.cfg.cap }) := by
  rw [pop, if_neg h]

theorem consume_of_empty {s : State} (h : s.ring.count = 0) : consume s = (none, { s with undr := true }) := by
  rw [consume, pop_of_empty h]

theorem consume_of_nonempty {s : State} (h : s.ring.count ≠ 0) :
    consume s = (some s.ring.oldest, { s with ring := s.ring.dropOldest s.cfg.cap, rdPend := false }) := by
  rw [consume, pop_of_nonempty h]

/-! ### Watchdog and line states -/

theorem wdtTick_cases (s : State) :
    (s.cfg.wdtLimit = 0 ∧ wdtTick s = s) ∨
    (s.cfg.wdtLimit ≠ 0 ∧ s.cfg.wdtLimit.toNat ≤ s.wdt.toNat + 1 ∧
      wdtTick s = { s with wdt := 0, drv := .rel, txn := 8, errcode := .stall }) ∨
    (s.cfg.wdtLimit ≠ 0 ∧ s.wdt.toNat + 1 < s.cfg.wdtLimit.toNat ∧ wdtTick s = { s with wdt := s.wdt + 1 }) := by
  unfold wdtTick
  split
  · exact .inl ⟨‹_›, rfl⟩
  · split
    · exact .inr (.inl ⟨‹_›, ‹_›, rfl⟩)
    · exact .inr (.inr ⟨‹_›, by omega, rfl⟩)

theorem lineStep_eq_ok_iff {armOf : State → Except FaultReason (Progress × State)} {s t : State} :
    lineStep armOf s = .ok t ↔
      (s.busy = true ∧ t = wdtTick s) ∨ (s.busy = false ∧ ∃ r, armOf s = .ok r ∧ t = afterArm r) := by
  unfold lineStep
  cases hb : s.busy
  · cases h : armOf s <;> simp [eq_comm]
  · simp [eq_comm]

theorem lineStep_eq_error_iff {armOf : State → Except FaultReason (Progress × State)} {s : State}
    {r : FaultReason} :
    lineStep armOf s = .error r ↔ s.busy = false ∧ armOf s = .error r := by
  unfold lineStep
  cases hb : s.busy
  · cases h : armOf s <;> simp
  · simp

/-! ### POLL -/

/-- POLL in a state whose phase is `p` is the arm of `p` (R65). -/
theorem execPoll_of_phase {p : Phase} {s : State} (h : Phase.ofCode s.txn = some p) :
    execPoll s = exec p.arm s := by
  unfold execPoll
  rw [h]
  cases p <;> rfl

theorem Phase.ofCode_code (p : Phase) : Phase.ofCode p.code = some p := by cases p <;> rfl

theorem Phase.code_of_ofCode {c : BitVec 4} {p : Phase} (h : Phase.ofCode c = some p) : c = p.code := by
  revert p c
  decide

theorem Phase.ofCode_eq_none_iff (c : BitVec 4) : Phase.ofCode c = none ↔ 9 ≤ c.toNat := by
  revert c
  decide

end Sys2Proof.Machine
end

