-- ==== Sys2Proof/Laws/PerInstr.lean ====
section
/-! SUPPORT. A statement for all instructions, one lemma per constructor of `Instr`: decoding an instruction's code
gives the instruction back. -/

namespace Sys2Proof.Laws.RoundTrip

def Statement (i : Instr) : Prop := decode (encode i) = .ok i

theorem init : Statement .init := rfl
theorem poll : Statement .poll := rfl
theorem edgeF : Statement .edgeF := rfl
theorem edgeR : Statement .edgeR := rfl
theorem tcapRst (level : Bool) : Statement (.tcapRst level) := by cases level <;> rfl
theorem tcapWr (level : Bool) : Statement (.tcapWr level) := by cases level <;> rfl
theorem tcapRd (level : Bool) : Statement (.tcapRd level) := by cases level <;> rfl
theorem tendRst : Statement .tendRst := rfl
theorem tendWr : Statement .tendWr := rfl
theorem tendRd : Statement .tendRd := rfl
theorem pollReset : Statement .pollReset := rfl
theorem pollPresence : Statement .pollPresence := rfl
theorem pollSkiprom : Statement .pollSkiprom := rfl
theorem pollConvert : Statement .pollConvert := rfl
theorem pollPollconv : Statement .pollPollconv := rfl
theorem pollReadsp : Statement .pollReadsp := rfl
theorem pollParse : Statement .pollParse := rfl
theorem pollDone : Statement .pollDone := rfl
theorem pollError : Statement .pollError := rfl
theorem skipRom : Statement .skipRom := rfl
theorem convertT : Statement .convertT := rfl
theorem readScratchpad : Statement .readScratchpad := rfl
theorem memRead (off : BitVec 32) (width : Nat) : Statement (.memRead off width) := rfl
theorem memWrite (off : BitVec 32) (width : Nat) (value : Word) : Statement (.memWrite off width value) := rfl

end Sys2Proof.Laws.RoundTrip
end

