-- ==== Sys2Proof/Laws/Ring.lean ====
section
/-! SUPPORT. The ring invariant is kept by every ring operation, and the power-on ring has it (R29, R93 to R97). -/

namespace Sys2Proof.Machine

theorem advance_toNat {cap : Nat} (h : cap ≤ 32) (h0 : 0 < cap) (x : BitVec 5) :
    (advance cap x).toNat = (x.toNat + 1) % cap := by
  have hlt : (x.toNat + 1) % cap < 32 := Nat.lt_of_lt_of_le (Nat.mod_lt _ h0) h
  simp [advance, Nat.mod_eq_of_lt hlt]

theorem Ring.Wf.push {cap : Nat} {r : Ring} (hw : r.Wf cap) (h0 : 0 < cap) (h : cap ≤ 32) (b : Bool) :
    (r.push cap b).Wf cap := by
  obtain ⟨hl, hh, ht, hc, hcur⟩ := hw
  have hmh := Nat.mod_lt (r.head.toNat + 1) h0
  have hmt := Nat.mod_lt (r.tail.toNat + 1) h0
  by_cases hf : r.count.toNat = cap
  · refine ⟨by simp [Ring.push, hl], ?_, ?_, ?_, ?_⟩ <;>
      simp only [Ring.push, Ring.isFull, hf, decide_true, if_true, advance_toNat h h0]
    · exact hmh
    · exact hmt
    · exact Nat.le_refl _
    · rw [hcur, hf]
      simp
  · have hlt : r.count.toNat < cap := by omega
    have hcount : (r.count + 1).toNat = r.count.toNat + 1 := by
      rw [BitVec.toNat_add]
      have : r.count.toNat + 1 < 64 := by omega
      simpa using Nat.mod_eq_of_lt this
    refine ⟨by simp [Ring.push, hl], ?_, ?_, ?_, ?_⟩ <;>
      simp only [Ring.push, Ring.isFull, hf, decide_false, Bool.false_eq_true, if_false, advance_toNat h h0, hcount]
    · exact hmh
    · exact ht
    · exact hlt
    · rw [hcur, Nat.mod_add_mod, Nat.add_assoc]

theorem Ring.Wf.dropOldest {cap : Nat} {r : Ring} (hw : r.Wf cap) (h0 : 0 < cap) (h : cap ≤ 32)
    (hne : r.count ≠ 0) : (r.dropOldest cap).Wf cap := by
  obtain ⟨hl, hh, ht, hc, hcur⟩ := hw
  have hmt := Nat.mod_lt (r.tail.toNat + 1) h0
  have hpos : 0 < r.count.toNat := by
    rcases Nat.eq_zero_or_pos r.count.toNat with h0 | h0
    · exact absurd (BitVec.eq_of_toNat_eq (by simpa using h0)) hne
    · exact h0
  have hcount : (r.count - 1).toNat = r.count.toNat - 1 := by
    rw [BitVec.toNat_sub_of_le (by rw [BitVec.le_def]; exact hpos)]
    rfl
  refine ⟨hl, hh, ?_, ?_, ?_⟩ <;> simp only [Ring.dropOldest, advance_toNat h h0, hcount]
  · exact hmt
  · omega
  · rw [hcur, Nat.mod_add_mod]
    congr 1
    omega

theorem Ring.Wf.flush {cap : Nat} {r : Ring} (hw : r.Wf cap) :
    Ring.Wf cap { r with tail := r.head, count := 0 } := by
  obtain ⟨hl, hh, ht, hc, hcur⟩ := hw
  exact ⟨hl, hh, hh, by simp, by simp [Nat.mod_eq_of_lt hh]⟩

theorem Ring.Wf.resetCursors {cap : Nat} {r : Ring} (hw : r.Wf cap) (h0 : 0 < cap) :
    Ring.Wf cap { r with head := 0, tail := 0, count := 0 } :=
  ⟨hw.length, by simpa using h0, by simpa using h0, by simp, by simp⟩

theorem Ring.Wf.powerOn {cap : Nat} (h0 : 0 < cap) (u : BitVec 32) : (Ring.powerOn cap u).Wf cap :=
  ⟨by simp [Ring.powerOn], by simpa [Ring.powerOn] using h0, by simpa [Ring.powerOn] using h0,
    by simp [Ring.powerOn], by simp [Ring.powerOn]⟩

/-- R7, R8: the capacity of every configuration. -/
theorem Config.cap_bounds (c : Config) : 16 ≤ c.cap ∧ c.cap ≤ 32 := by
  have h := c.wf
  simp only [Params.wf, regSize, Bool.and_eq_true, decide_eq_true_eq] at h
  omega

end Sys2Proof.Machine
end

