-- ==== Sys2Proof/Laws/Poll.lean ====
section
/-! SUPPORT. What a POLL can do, said once: `PollStep s t` lists every outcome of R72 to R86 and R133, each with its
guard, and `exec_poll_next` says that a POLL's next state is one of them. -/

namespace Sys2Proof.Machine

/-- The command byte a write phase sends in a state where its arm sends one (R80, R81, R83). -/
def SendsByte (s : State) (c : Byte) : Prop :=
  (s.txn = 2 ∧ c = skipRomByte) ∨ (s.txn = 3 ∧ convertSkipped s = false ∧ c = convertTByte) ∨
    (s.txn = 5 ∧ c = readScratchpadByte)

/-- Every outcome of a POLL in a state with no fault recorded. -/
inductive PollStep (s : State) : State → Prop where
  | illegal (h : 9 ≤ s.txn.toNat) : PollStep s (s.raise .illegalState)
  | doubleArm (h : s.txn.toNat ≤ 6) (hb : s.busy = false)
      (ha : s.tmr.rst.armed = true ∨ s.tmr.wr.armed = true ∨ s.tmr.rd.armed = true) :
      PollStep s (s.raise .doubleArm)
  | busyTick (h : s.txn.toNat ≤ 6) (hb : s.busy = true) : PollStep s (wdtTick s)
  | underrun (h : s.txn = 4 ∨ s.txn = 6) (hb : s.busy = false) (hp : s.rdPend = true)
      (hc : s.ring.count = 0) : PollStep s (wdtTick { s with undr := true })
  | reset (h : s.txn = 0) (hb : s.busy = false) (ha : s.tmr.rst.armed = false) :
      PollStep s { s with
        retry := s.cfg.retryN, presSeen := false, pwin := false, drv := .low, busy := true
        tmr := { s.tmr with rst := { armed := true, capPend := false, period := s.cfg.tReset, cmp := none } }
        log := s.log ++ [.rstLow], txn := 1, wdt := 0 }
  | presenceSeen (h : s.txn = 1) (hb : s.busy = false) (hp : s.presSeen = true) :
      PollStep s { s with presSeen := false, txBit := 0, txn := 2, wdt := 0 }
  | presenceTimeout (h : s.txn = 1) (hb : s.busy = false) (hp : s.presSeen = false) (hr : s.retry = 0) :
      PollStep s { s with drv := .rel, txn := 8, errcode := .presenceTimeout, wdt := 0 }
  | presenceWindow (h : s.txn = 1) (hb : s.busy = false) (hp : s.presSeen = false) (hr : s.retry ≠ 0)
      (ha : s.tmr.rst.armed = false) :
      PollStep s { s with
        retry := s.retry - 1, drv := .rel, pwin := true, busy := true
        tmr := { s.tmr with rst := { armed := true, capPend := false, period := s.cfg.tPresWin, cmp := none } }
        log := s.log ++ [.presWin], wdt := 0 }
  | writeSlot (c : Byte) (h : SendsByte s c) (hb : s.busy = false) (ht : s.txBit.toNat < 8)
      (ha : s.tmr.wr.armed = false) :
      PollStep s { s with
        drv := if transmitBit c s.txBit then .high else .low
        busy := true
        tmr := { s.tmr with wr := { armed := true, capPend := false, period := s.cfg.tWriteSlot, cmp := none } }
        txBit := s.txBit + 1
        log := s.log ++ [.wbit (transmitBit c s.txBit)], wdt := 0 }
  | skipRomExit (h : s.txn = 2) (hb : s.busy = false) (ht : 8 ≤ s.txBit.toNat) :
      PollStep s { s with txBit := 0, txn := 3, wdt := 0 }
  | convertSkip (h : s.txn = 3) (hb : s.busy = false) (hk : convertSkipped s = true) :
      PollStep s { s with txn := 5, wdt := 0 }
  | settle (h : s.txn = 3) (hb : s.busy = false) (ht : 8 ≤ s.txBit.toNat) (hs : s.settle = false)
      (ha : s.tmr.rst.armed = false) :
      PollStep s { s with
        settle := true, busy := true
        tmr := { s.tmr with rst := { armed := true, capPend := false, period := s.cfg.tConvSettle, cmp := none } }
        log := s.log ++ [.settle], wdt := 0 }
  | convertExit (h : s.txn = 3) (hb : s.busy = false) (ht : 8 ≤ s.txBit.toNat) (hs : s.settle = true) :
      PollStep s { s with settle := false, txBit := 0, rdPend := false, txn := 4, wdt := 0 }
  | readSlot (h : s.txn = 4 ∨ (s.txn = 6 ∧ s.rxBit.toNat < 16)) (hb : s.busy = false) (hp : s.rdPend = false)
      (ha : s.tmr.rd.armed = false) :
      PollStep s { s with
        ring := { s.ring with tail := s.ring.head, count := 0 }
        drv := .rel, rdPend := true, busy := true
        tmr := { s.tmr with rd := { armed := true, capPend := true, period := s.cfg.tReadSlot,
                                    cmp := some s.cfg.tReadSample } }
        log := s.log ++ [.rslot], wdt := 0 }
  | conversionDone (h : s.txn = 4) (hb : s.busy = false) (hp : s.rdPend = true) (hc : s.ring.count ≠ 0)
      (hv : s.ring.oldest = true) :
      PollStep s { s with
        rdPend := false, convDone := true, ring := { s.ring with head := 0, tail := 0, count := 0 }
        txn := 0, wdt := 0 }
  | conversionPending (h : s.txn = 4) (hb : s.busy = false) (hp : s.rdPend = true) (hc : s.ring.count ≠ 0)
      (hv : s.ring.oldest = false) :
      PollStep s { s with rdPend := false, ring := s.ring.dropOldest s.cfg.cap, wdt := 0 }
  | readSpExit (h : s.txn = 5) (hb : s.busy = false) (ht : 8 ≤ s.txBit.toNat) :
      PollStep s { s with txBit := 0, rxBit := 0, acc := 0, rdPend := false, txn := 6, wdt := 0 }
  | parseGuard (h : s.txn = 6) (hb : s.busy = false) (hp : s.rdPend = false) (hr : 16 ≤ s.rxBit.toNat) :
      PollStep s { s with txn := 7, wdt := 0 }
  | parseSample (h : s.txn = 6) (hb : s.busy = false) (hp : s.rdPend = true) (hc : s.ring.count ≠ 0)
      (hr : s.rxBit.toNat < 16) :
      PollStep s { s with
        rdPend := false, ring := s.ring.dropOldest s.cfg.cap
        acc := accumulate s.acc s.ring.oldest s.rxBit, rxBit := s.rxBit + 1
        txn := if s.rxBit.toNat = 15 then 7 else 6, wdt := 0 }
  | parseOverflow (h : s.txn = 6) (hb : s.busy = false) (hp : s.rdPend = true) (hc : s.ring.count ≠ 0)
      (hr : 16 ≤ s.rxBit.toNat) :
      PollStep s { s with
        rdPend := false, ring := s.ring.dropOldest s.cfg.cap
        txn := if s.rxBit.toNat = 16 then 7 else 6, wdt := 0 }
  | report (h : s.txn = 7) (hd : s.done = false) :
      PollStep s { s with
        temp := decodeTemp s.cfg.decodeSigned s.acc, done := true, convDone := false, acc := 0, rxBit := 0
        log := s.log ++ [.reportDone (decodeTemp s.cfg.decodeSigned s.acc)] }
  | reportError (h : s.txn = 8) (he : s.err = false) :
      PollStep s { s with err := true, log := s.log ++ [.reportErr s.errcode] }
  | idle (h : (s.txn = 7 ∧ s.done = true) ∨ (s.txn = 8 ∧ s.err = true)) : PollStep s s

/-! ### Each arm -/

theorem armReset_ok {s : State} (ha : s.tmr.rst.armed = false) :
    armReset s = .ok (.progress, { s with
        retry := s.cfg.retryN, presSeen := false, pwin := false, drv := .low, busy := true
        tmr := { s.tmr with rst := { armed := true, capPend := false, period := s.cfg.tReset, cmp := none } }
        log := s.log ++ [.rstLow], txn := 1 }) := by
  simp only [armReset]
  rw [arm_of_idle (by exact ha)]
  rfl

theorem armReset_error {s : State} (ha : s.tmr.rst.armed = true) : armReset s = .error .doubleArm := by
  simp only [armReset]
  rw [arm_of_armed (by exact ha)]

theorem openWindow_ok {s : State} (ha : s.tmr.rst.armed = false) :
    openWindow s = .ok { s with
        retry := s.retry - 1, drv := .rel, pwin := true, busy := true
        tmr := { s.tmr with rst := { armed := true, capPend := false, period := s.cfg.tPresWin, cmp := none } }
        log := s.log ++ [.presWin] } := by
  simp only [openWindow]
  rw [arm_of_idle (by exact ha)]
  rfl

theorem openWindow_error {s : State} (ha : s.tmr.rst.armed = true) : openWindow s = .error .doubleArm := by
  simp only [openWindow]
  rw [arm_of_armed (by exact ha)]

theorem startSettle_ok {s : State} (ha : s.tmr.rst.armed = false) :
    startSettle s = .ok { s with
        settle := true, busy := true
        tmr := { s.tmr with rst := { armed := true, capPend := false, period := s.cfg.tConvSettle, cmp := none } }
        log := s.log ++ [.settle] } := by
  simp only [startSettle]
  rw [arm_of_idle (by exact ha)]
  rfl

theorem startSettle_error {s : State} (ha : s.tmr.rst.armed = true) : startSettle s = .error .doubleArm := by
  simp only [startSettle]
  rw [arm_of_armed (by exact ha)]

/-- `S.rx_bit + 1` is exact while it is below 16 (R87). -/
theorem rxBit_succ {x : BitVec 5} (h : x.toNat < 16) : (x + 1).toNat = x.toNat + 1 := by
  rw [BitVec.toNat_add]
  have : x.toNat + 1 < 32 := by omega
  simpa using Nat.mod_eq_of_lt this

/-- `S.tx_bit + 1` is exact while it is below 8 (R87). -/
theorem txBit_succ {x : BitVec 4} (h : x.toNat < 8) : (x + 1).toNat = x.toNat + 1 := by
  rw [BitVec.toNat_add]
  have : x.toNat + 1 < 16 := by omega
  simpa using Nat.mod_eq_of_lt this

/-! ### POLL -/

/-- What `lineStep` gives, as a step of the block, when the arm itself answers. -/
theorem perform_lineStep_ok {armOf : State → Except FaultReason (Progress × State)} {s : State}
    {r : Progress × State} (hf : s.fault = FaultSet.empty) (hb : s.busy = false) (h : armOf s = .ok r) :
    perform (lineStep armOf) s = .next (afterArm r) :=
  perform_of_ok hf (lineStep_eq_ok_iff.2 (.inr ⟨hb, r, h, rfl⟩))

theorem perform_lineStep_error {armOf : State → Except FaultReason (Progress × State)} {s : State}
    {r : FaultReason} (hf : s.fault = FaultSet.empty) (hb : s.busy = false) (h : armOf s = .error r) :
    perform (lineStep armOf) s = .next (s.raise r) :=
  perform_of_error hf (lineStep_eq_error_iff.2 ⟨hb, h⟩)

theorem perform_lineStep_busy {armOf : State → Except FaultReason (Progress × State)} {s : State}
    (hf : s.fault = FaultSet.empty) (hb : s.busy = true) : perform (lineStep armOf) s = .next (wdtTick s) :=
  perform_of_ok hf (lineStep_eq_ok_iff.2 (.inl ⟨hb, rfl⟩))

/-- POLL in the phase `p` is the action of the arm of `p`. -/
theorem execPoll_eq_performArm {p : Phase} {f : State → Except FaultReason State} {s : State}
    (ht : s.txn = p.code) (hp : exec p.arm s = performArm p f s) : exec .poll s = perform f s := by
  have h : Phase.ofCode s.txn = some p := by rw [ht]; exact Phase.ofCode_code p
  exact (execPoll_of_phase h).trans (hp.trans (performArm_of_selected ht))

/-- POLL has a next state in every state with no fault recorded, and it is one of the outcomes listed (R72). -/
theorem exec_poll_unfaulted (s : State) (hf : s.fault = FaultSet.empty) :
    ∃ t, exec .poll s = .next t ∧ PollStep s t := by
  cases hp : Phase.ofCode s.txn with
  | none =>
    refine ⟨_, ?_, .illegal ((Phase.ofCode_eq_none_iff _).1 hp)⟩
    simp only [exec, execPoll, hp]
    exact perform_of_error hf rfl
  | some p =>
    have ht := Phase.code_of_ofCode hp
    cases p with
    | reset =>
      rw [execPoll_eq_performArm ht rfl]
      cases hb : s.busy with
      | true => exact ⟨_, perform_lineStep_busy hf hb, .busyTick (by rw [ht]; decide) hb⟩
      | false =>
        cases ha : s.tmr.rst.armed with
        | true => exact ⟨_, perform_lineStep_error hf hb (armReset_error ha), .doubleArm (by rw [ht]; decide) hb (.inl ha)⟩
        | false => exact ⟨_, perform_lineStep_ok hf hb (armReset_ok ha), .reset ht hb ha⟩
    | presence =>
      rw [execPoll_eq_performArm ht rfl]
      cases hb : s.busy with
      | true => exact ⟨_, perform_lineStep_busy hf hb, .busyTick (by rw [ht]; decide) hb⟩
      | false =>
        cases hs : s.presSeen with
        | true => (refine ⟨_, perform_lineStep_ok hf hb (by rw [armPresence, if_pos hs]), ?_⟩; exact .presenceSeen ht hb hs)
        | false =>
          by_cases hr : s.retry = 0
          · (refine ⟨_, perform_lineStep_ok hf hb (by rw [armPresence, if_neg (by simp [hs]), if_pos hr]), ?_⟩; exact .presenceTimeout ht hb hs hr)
          · cases ha : s.tmr.rst.armed with
            | true => (refine ⟨_, perform_lineStep_error hf hb (by rw [armPresence, if_neg (by simp [hs]), if_neg hr, openWindow_error ha]), ?_⟩; exact .doubleArm (by rw [ht]; decide) hb (.inl ha))
            | false => (refine ⟨_, perform_lineStep_ok hf hb (by rw [armPresence, if_neg (by simp [hs]), if_neg hr, openWindow_ok ha]), ?_⟩; exact .presenceWindow ht hb hs hr ha)
    | skipRom =>
      rw [execPoll_eq_performArm ht rfl]
      cases hb : s.busy with
      | true => exact ⟨_, perform_lineStep_busy hf hb, .busyTick (by rw [ht]; decide) hb⟩
      | false =>
        by_cases hl : s.txBit.toNat < 8
        · cases ha : s.tmr.wr.armed with
          | true => (refine ⟨_, perform_lineStep_error hf hb (by rw [armSkipRom, if_pos hl, writeSlot_of_armed ha]), ?_⟩; exact .doubleArm (by rw [ht]; decide) hb (.inr (.inl ha)))
          | false => (refine ⟨_, perform_lineStep_ok hf hb (by rw [armSkipRom, if_pos hl, writeSlot_of_idle ha]), ?_⟩; exact .writeSlot _ (.inl ⟨ht, rfl⟩) hb hl ha)
        · (refine ⟨_, perform_lineStep_ok hf hb (by rw [armSkipRom, if_neg hl]), ?_⟩; exact .skipRomExit ht hb (by omega))
    | convertTemperature =>
      rw [execPoll_eq_performArm ht rfl]
      cases hb : s.busy with
      | true => exact ⟨_, perform_lineStep_busy hf hb, .busyTick (by rw [ht]; decide) hb⟩
      | false =>
        cases hk : convertSkipped s with
        | true => (refine ⟨_, perform_lineStep_ok hf hb (by rw [armConvert, if_pos hk]), ?_⟩; exact .convertSkip ht hb hk)
        | false =>
          have hk' : ¬convertSkipped s = true := by simp [hk]
          by_cases hl : s.txBit.toNat < 8
          · cases ha : s.tmr.wr.armed with
            | true => (refine ⟨_, perform_lineStep_error hf hb (by rw [armConvert, if_neg hk', if_pos hl, writeSlot_of_armed ha]), ?_⟩; exact .doubleArm (by rw [ht]; decide) hb (.inr (.inl ha)))
            | false => (refine ⟨_, perform_lineStep_ok hf hb (by rw [armConvert, if_neg hk', if_pos hl, writeSlot_of_idle ha]), ?_⟩; exact .writeSlot _ (.inr (.inl ⟨ht, hk, rfl⟩)) hb hl ha)
          · cases hs : s.settle with
            | true => (refine ⟨_, perform_lineStep_ok hf hb (by rw [armConvert, if_neg hk', if_neg hl, if_neg (by simp [hs])]), ?_⟩; exact .convertExit ht hb (by omega) hs)
            | false =>
              cases ha : s.tmr.rst.armed with
              | true => (refine ⟨_, perform_lineStep_error hf hb (by rw [armConvert, if_neg hk', if_neg hl, if_pos (by simp [hs]), startSettle_error ha]), ?_⟩; exact .doubleArm (by rw [ht]; decide) hb (.inl ha))
              | false => (refine ⟨_, perform_lineStep_ok hf hb (by rw [armConvert, if_neg hk', if_neg hl, if_pos (by simp [hs]), startSettle_ok ha]), ?_⟩; exact .settle ht hb (by omega) hs ha)
    | pollConversion =>
      rw [execPoll_eq_performArm ht rfl]
      cases hb : s.busy with
      | true => exact ⟨_, perform_lineStep_busy hf hb, .busyTick (by rw [ht]; decide) hb⟩
      | false =>
        cases hq : s.rdPend with
        | false =>
          cases ha : s.tmr.rd.armed with
          | true => (refine ⟨_, perform_lineStep_error hf hb (by rw [armPollConv, if_pos (by simp [hq]), issueRead_of_armed ha]), ?_⟩; exact .doubleArm (by rw [ht]; decide) hb (.inr (.inr ha)))
          | false => (refine ⟨_, perform_lineStep_ok hf hb (by rw [armPollConv, if_pos (by simp [hq]), issueRead_of_idle ha]), ?_⟩; exact .readSlot (.inl ht) hb hq ha)
        | true =>
          by_cases hc : s.ring.count = 0
          · (refine ⟨_, perform_lineStep_ok hf hb (by rw [armPollConv, if_neg (by simp [hq]), consume_of_empty hc]), ?_⟩; exact .underrun (.inl ht) hb hq hc)
          · cases hv : s.ring.oldest with
            | true => (refine ⟨_, perform_lineStep_ok hf hb (by rw [armPollConv, if_neg (by simp [hq]), consume_of_nonempty hc, hv]), ?_⟩; exact .conversionDone ht hb hq hc hv)
            | false => (refine ⟨_, perform_lineStep_ok hf hb (by rw [armPollConv, if_neg (by simp [hq]), consume_of_nonempty hc, hv]), ?_⟩; exact .conversionPending ht hb hq hc hv)
    | readScratchpad =>
      rw [execPoll_eq_performArm ht rfl]
      cases hb : s.busy with
      | true => exact ⟨_, perform_lineStep_busy hf hb, .busyTick (by rw [ht]; decide) hb⟩
      | false =>
        by_cases hl : s.txBit.toNat < 8
        · cases ha : s.tmr.wr.armed with
          | true => (refine ⟨_, perform_lineStep_error hf hb (by rw [armReadSp, if_pos hl, writeSlot_of_armed ha]), ?_⟩; exact .doubleArm (by rw [ht]; decide) hb (.inr (.inl ha)))
          | false => (refine ⟨_, perform_lineStep_ok hf hb (by rw [armReadSp, if_pos hl, writeSlot_of_idle ha]), ?_⟩; exact .writeSlot _ (.inr (.inr ⟨ht, rfl⟩)) hb hl ha)
        · (refine ⟨_, perform_lineStep_ok hf hb (by rw [armReadSp, if_neg hl]), ?_⟩; exact .readSpExit ht hb (by omega))
    | parseScratchpad =>
      rw [execPoll_eq_performArm ht rfl]
      cases hb : s.busy with
      | true => exact ⟨_, perform_lineStep_busy hf hb, .busyTick (by rw [ht]; decide) hb⟩
      | false =>
        cases hq : s.rdPend with
        | false =>
          by_cases hr : s.rxBit.toNat < 16
          · cases ha : s.tmr.rd.armed with
            | true => (refine ⟨_, perform_lineStep_error hf hb (by rw [armParse, if_pos (by simp [hq]), if_pos hr, issueRead_of_armed ha]), ?_⟩; exact .doubleArm (by rw [ht]; decide) hb (.inr (.inr ha)))
            | false => (refine ⟨_, perform_lineStep_ok hf hb (by rw [armParse, if_pos (by simp [hq]), if_pos hr, issueRead_of_idle ha]), ?_⟩; exact .readSlot (.inr ⟨ht, hr⟩) hb hq ha)
          · (refine ⟨_, perform_lineStep_ok hf hb (by rw [armParse, if_pos (by simp [hq]), if_neg hr]), ?_⟩; exact .parseGuard ht hb hq (by omega))
        | true =>
          by_cases hc : s.ring.count = 0
          · (refine ⟨_, perform_lineStep_ok hf hb (by rw [armParse, if_neg (by simp [hq]), consume_of_empty hc]), ?_⟩; exact .underrun (.inr ht) hb hq hc)
          · refine ⟨_, perform_lineStep_ok hf hb (by rw [armParse, if_neg (by simp [hq]), consume_of_nonempty hc]), ?_⟩
            by_cases hr : s.rxBit.toNat < 16
            · have := PollStep.parseSample ht hb hq hc hr
              simp only [afterArm, accumulateBit, regSize, hr, if_true, parseExit, rxBit_succ hr]
              by_cases h15 : s.rxBit.toNat = 15
              · simpa [h15, Phase.code] using this
              · have h16 : ¬ s.rxBit.toNat + 1 = 16 := by omega
                simpa [h15, h16, ht, Phase.code] using this
            · have := PollStep.parseOverflow ht hb hq hc (by omega)
              simp only [afterArm, accumulateBit, regSize, hr, if_false, parseExit]
              by_cases h16 : s.rxBit.toNat = 16
              · simpa [h16, Phase.code] using this
              · simpa [h16, ht, Phase.code] using this
    | done =>
      rw [execPoll_eq_performArm ht rfl]
      cases hd : s.done with
      | true => (refine ⟨_, perform_of_ok hf (by rw [armDone, if_pos hd]), ?_⟩; exact .idle (.inl ⟨ht, hd⟩))
      | false => (refine ⟨_, perform_of_ok hf (by rw [armDone, if_neg (by simp [hd])]), ?_⟩; exact .report ht hd)
    | error =>
      rw [execPoll_eq_performArm ht rfl]
      cases hd : s.err with
      | true => (refine ⟨_, perform_of_ok hf (by rw [armError, if_pos hd]), ?_⟩; exact .idle (.inr ⟨ht, hd⟩))
      | false => (refine ⟨_, perform_of_ok hf (by rw [armError, if_neg (by simp [hd])]), ?_⟩; exact .reportError ht hd)

end Sys2Proof.Machine
end

