-- ==== Sys2Proof/Laws/Step.lean ====
section
/-! SUPPORT. What an instruction can do, said once: `exec_next` names, for each instruction, the next states it can
have; the other lemmas say where the arms, the command bytes and the events have one. -/

namespace Sys2Proof.Machine

/-- An arm is POLL's action in the state that selects it. -/
theorem exec_arm_eq (p : Phase) : ∃ f, ∀ s, exec p.arm s = performArm p f s := by
  cases p <;> exact ⟨_, fun _ => rfl⟩

theorem exec_arm_faulted (p : Phase) {s : State} (hf : s.fault ≠ FaultSet.empty) :
    exec p.arm s = .fault .quiescent := by
  obtain ⟨f, h⟩ := exec_arm_eq p
  rw [h]
  exact performWhen_of_faulted hf

/-- An arm's next state is POLL's, in the phase that selects the arm. -/
theorem exec_arm_next {p : Phase} {s t : State} (h : exec p.arm s = .next t) :
    s.txn = p.code ∧ exec .poll s = .next t := by
  obtain ⟨f, hp⟩ := exec_arm_eq p
  rw [hp] at h
  have ht := (performArm_eq_next_iff.1 h).1
  have ho : Phase.ofCode s.txn = some p := by rw [ht]; exact Phase.ofCode_code p
  exact ⟨ht, (execPoll_of_phase ho).trans ((hp s).trans h)⟩

theorem exec_poll_faulted {s : State} (hf : s.fault ≠ FaultSet.empty) : exec .poll s = .fault .quiescent := by
  cases hp : Phase.ofCode s.txn with
  | none =>
    simp only [exec, execPoll, hp]
    exact perform_of_faulted hf
  | some p => exact (execPoll_of_phase hp).trans (exec_arm_faulted p hf)

/-- A POLL's next state is one of the outcomes of `PollStep`. -/
theorem exec_poll_next {s t : State} (h : exec .poll s = .next t) : s.fault = FaultSet.empty ∧ PollStep s t := by
  by_cases hf : s.fault = FaultSet.empty
  · obtain ⟨u, hu, hp⟩ := exec_poll_unfaulted s hf
    rw [hu] at h
    cases h
    exact ⟨hf, hp⟩
  · rw [exec_poll_faulted hf] at h
    cases h

/-! ### Command bytes -/

theorem transmits_iff {p : Phase} {s : State} :
    transmits p s = true ↔ s.txn = p.code ∧ s.busy = false ∧ s.txBit.toNat < 8 ∧
      ¬(p = .convertTemperature ∧ convertSkipped s = true) := by
  simp [transmits, and_assoc]
  intros
  cases convertSkipped s <;> simp

theorem sendBit_of_idle {c : Byte} {s : State} (h : s.tmr.wr.armed = false) :
    sendBit c s = .ok { s with
      drv := if transmitBit c s.txBit then .high else .low
      busy := true
      tmr := { s.tmr with wr := { armed := true, capPend := false, period := s.cfg.tWriteSlot, cmp := none } }
      txBit := s.txBit + 1
      log := s.log ++ [.wbit (transmitBit c s.txBit)], wdt := 0 } := by
  rw [sendBit, writeSlot_of_idle h]
  rfl

theorem sendBit_of_armed {c : Byte} {s : State} (h : s.tmr.wr.armed = true) :
    sendBit c s = .error .doubleArm := by
  rw [sendBit, writeSlot_of_armed h]

/-- Where a command byte has a step, it is POLL's. -/
theorem command_eq_poll {p : Phase} {armOf : State → Except FaultReason (Progress × State)} {c : Byte} {s : State}
    (hp : ∀ s, exec p.arm s = performArm p (lineStep armOf) s) (ht : transmits p s = true)
    (ha : ∀ t, writeSlot c s = .ok t → armOf s = .ok (.progress, t))
    (he : ∀ e, writeSlot c s = .error e → armOf s = .error e) :
    perform (sendBit c) s = exec .poll s := by
  obtain ⟨htx, hb, -, -⟩ := transmits_iff.1 ht
  rw [execPoll_eq_performArm htx (hp s)]
  unfold perform
  congr 1
  rw [sendBit, lineStep, hb]
  cases h : writeSlot c s with
  | ok t => rw [ha t h]; rfl
  | error e => rw [he e h]; rfl

theorem skipRom_eq_poll {s : State} (h : transmits .skipRom s = true) : exec .skipRom s = exec .poll s := by
  obtain ⟨-, -, hl, -⟩ := transmits_iff.1 h
  refine (performWhen_of_ok h).trans (command_eq_poll (armOf := armSkipRom) (fun _ => rfl) h ?_ ?_) <;>
    intro _ hw <;> rw [armSkipRom, if_pos hl, hw]

theorem convertT_eq_poll {s : State} (h : transmits .convertTemperature s = true) :
    exec .convertT s = exec .poll s := by
  obtain ⟨-, -, hl, hk⟩ := transmits_iff.1 h
  have hk' : ¬convertSkipped s = true := fun hc => hk ⟨rfl, hc⟩
  refine (performWhen_of_ok h).trans (command_eq_poll (armOf := armConvert) (fun _ => rfl) h ?_ ?_) <;>
    intro _ hw <;> rw [armConvert, if_neg hk', if_pos hl, hw]

theorem readScratchpad_eq_poll {s : State} (h : transmits .readScratchpad s = true) :
    exec .readScratchpad s = exec .poll s := by
  obtain ⟨-, -, hl, -⟩ := transmits_iff.1 h
  refine (performWhen_of_ok h).trans (command_eq_poll (armOf := armReadSp) (fun _ => rfl) h ?_ ?_) <;>
    intro _ hw <;> rw [armReadSp, if_pos hl, hw]

/-! ### Every instruction -/

/-- A CTRL write's effect with the strobes it carries (R118): INIT first, then POLL. -/
def CtrlStep (value : Word) (s t : State) : Prop :=
  (value.getLsbD 1 = false ∧ t = if value.getLsbD 0 then initEntry s else s) ∨
    (value.getLsbD 1 = true ∧ PollStep (if value.getLsbD 0 then initEntry s else s) t)

/-- The next states an instruction can have in a state with no fault recorded. -/
def InstrStep (i : Instr) (s t : State) : Prop :=
  match i with
  | .init => t = initEntry s
  | .poll | .pollReset | .pollPresence | .pollSkiprom | .pollConvert | .pollPollconv | .pollReadsp | .pollParse
  | .pollDone | .pollError | .skipRom | .convertT | .readScratchpad => PollStep s t
  | .edgeF => t = edgeFall s
  | .edgeR => t = s
  | .tcapRst level => captureEnabled .rst s = true ∧ t = capture .rst level s
  | .tcapWr level => captureEnabled .wr s = true ∧ t = capture .wr level s
  | .tcapRd level => captureEnabled .rd s = true ∧ t = capture .rd level s
  | .tendRst => terminalEnabled .rst s = true ∧ t = terminal .rst s
  | .tendWr => terminalEnabled .wr s = true ∧ t = terminal .wr s
  | .tendRd => terminalEnabled .rd s = true ∧ t = terminal .rd s
  | .memRead off width =>
    (accessLegal off width = true ∧ t = { s with busData := some (readReg off s) }) ∨
      (accessLegal off width = false ∧ t = s.raise .badAccess)
  | .memWrite off width value =>
    (accessLegal off width = false ∧ t = s.raise .badAccess) ∨
      (accessLegal off width = true ∧ off ≠ 0 ∧ t = s) ∨
      (accessLegal off width = true ∧ off = 0 ∧ CtrlStep value s t)

theorem performCapture_next {id : TimerId} {level : Bool} {s t : State}
    (h : performCapture id level s = .next t) :
    s.fault = FaultSet.empty ∧ captureEnabled id s = true ∧ t = capture id level s := by
  obtain ⟨he, h⟩ := (performWhen_eq_next_iff (by simp)).1 h
  obtain ⟨hf, h | ⟨r, h, -⟩⟩ := perform_eq_next_iff.1 h
  · cases h
    exact ⟨hf, he, rfl⟩
  · cases h

theorem performTerminal_next {id : TimerId} {s t : State} (h : performTerminal id s = .next t) :
    s.fault = FaultSet.empty ∧ terminalEnabled id s = true ∧ t = terminal id s := by
  obtain ⟨he, h⟩ := (performWhen_eq_next_iff (by simp)).1 h
  obtain ⟨hf, h | ⟨r, h, -⟩⟩ := perform_eq_next_iff.1 h
  · cases h
    exact ⟨hf, he, rfl⟩
  · cases h

theorem ctrlWrite_next {value : Word} {s t : State}
    (h : ctrlWrite value s = .next t) : CtrlStep value s t := by
  simp only [ctrlWrite] at h
  split at h
  · rename_i h1
    exact .inr ⟨h1, (exec_poll_next h).2⟩
  · rename_i h1
    cases h
    exact .inl ⟨by simpa using h1, rfl⟩

/-- The inversion lemma of `exec`: a next state comes from a state with no fault recorded, and is one that
`InstrStep` names. -/
theorem exec_next {i : Instr} {s t : State} (h : exec i s = .next t) :
    s.fault = FaultSet.empty ∧ InstrStep i s t := by
  cases i with
  | init =>
    obtain ⟨hf, h | ⟨r, h, -⟩⟩ := perform_eq_next_iff.1 (show perform (fun s => .ok (initEntry s)) s = _ from h)
    · cases h; exact ⟨hf, rfl⟩
    · cases h
  | edgeF =>
    obtain ⟨hf, h | ⟨r, h, -⟩⟩ := perform_eq_next_iff.1 (show perform (fun s => .ok (edgeFall s)) s = _ from h)
    · cases h; exact ⟨hf, rfl⟩
    · cases h
  | edgeR =>
    obtain ⟨hf, h | ⟨r, h, -⟩⟩ := perform_eq_next_iff.1 (show perform (fun s => .ok (s)) s = _ from h)
    · cases h; exact ⟨hf, rfl⟩
    · cases h
  | tcapRst level => exact performCapture_next h
  | tcapWr level => exact performCapture_next h
  | tcapRd level => exact performCapture_next h
  | tendRst => exact performTerminal_next h
  | tendWr => exact performTerminal_next h
  | tendRd => exact performTerminal_next h
  | poll => exact exec_poll_next h
  | pollReset => exact exec_poll_next (exec_arm_next (p := .reset) h).2
  | pollPresence => exact exec_poll_next (exec_arm_next (p := .presence) h).2
  | pollSkiprom => exact exec_poll_next (exec_arm_next (p := .skipRom) h).2
  | pollConvert => exact exec_poll_next (exec_arm_next (p := .convertTemperature) h).2
  | pollPollconv => exact exec_poll_next (exec_arm_next (p := .pollConversion) h).2
  | pollReadsp => exact exec_poll_next (exec_arm_next (p := .readScratchpad) h).2
  | pollParse => exact exec_poll_next (exec_arm_next (p := .parseScratchpad) h).2
  | pollDone => exact exec_poll_next (exec_arm_next (p := .done) h).2
  | pollError => exact exec_poll_next (exec_arm_next (p := .error) h).2
  | skipRom =>
    have ht := ((performWhen_eq_next_iff (by simp)).1 (show performWhen _ _ _ s = _ from h)).1
    exact exec_poll_next ((skipRom_eq_poll ht).symm.trans h)
  | convertT =>
    have ht := ((performWhen_eq_next_iff (by simp)).1 (show performWhen _ _ _ s = _ from h)).1
    exact exec_poll_next ((convertT_eq_poll ht).symm.trans h)
  | readScratchpad =>
    have ht := ((performWhen_eq_next_iff (by simp)).1 (show performWhen _ _ _ s = _ from h)).1
    exact exec_poll_next ((readScratchpad_eq_poll ht).symm.trans h)
  | memRead off width =>
    obtain ⟨hf, h⟩ := perform_eq_next_iff.1 (show perform (readAccess off width) s = _ from h)
    refine ⟨hf, ?_⟩
    unfold readAccess at h
    cases hl : accessLegal off width with
    | true =>
      rw [if_pos hl] at h
      obtain h | ⟨r, h, -⟩ := h <;> cases h
      exact .inl ⟨hl, rfl⟩
    | false =>
      rw [if_neg (by simp [hl])] at h
      obtain h | ⟨r, h, ht⟩ := h <;> cases h
      exact .inr ⟨hl, ht⟩
  | memWrite off width value =>
    simp only [exec, execMemWrite] at h
    split at h
    · rename_i hf
      refine ⟨hf, ?_⟩
      split at h
      · rename_i hl
        simp only [writeReg] at h
        split at h
        · exact .inr (.inr ⟨hl, ‹_›, ctrlWrite_next h⟩)
        · cases h; exact .inr (.inl ⟨hl, ‹_›, rfl⟩)
      · rename_i hl
        cases h
        exact .inl ⟨by simpa using hl, rfl⟩
    · cases h

end Sys2Proof.Machine
end

