-- ==== Sys2Proof/Tests/Slice0.lean ====
section
/-! SUPPORT. The model's own tests: the WellFormed smoke test; words written out from the encoding tables of
spec/30_encoding.md; one-step vectors, each from spec/95_test_vectors.md under its id V<n> (or from the example line
of the rule named); and, for every obligation with hypotheses, a witness: a state and operands that meet them. -/

namespace Sys2Proof.Tests

open Sys2Proof Sys2Proof.Machine

/-! ### Helpers -/

/-- POR of spec/95_test_vectors.md with `txn` set. -/
def atPhase (txn : BitVec 4) : State := { State.reset with txn := txn }

/-- An armed timer, with or without a pending capture. -/
def running (capPend : Bool) : Timer := { armed := true, capPend := capPend, period := 60, cmp := none }

/-- A state with timer `id` armed and busy set. -/
def inFlight (id : TimerId) (capPend : Bool) (s : State) : State :=
  { s with busy := true, tmr := s.tmr.set (running capPend) id }

/-- What `f` reads in the next state; none where there is no next state. -/
def seen {α : Type} (i : Instr) (s : State) (f : State → α) : Option α :=
  match exec i s with
  | .next t => some (f t)
  | .fault _ => none
  | .refused _ => none

/-- The next state is `s` itself. -/
def unchanged (i : Instr) (s : State) : Bool := decide (seen i s id = some s)

/-- The instruction has no step: it stops as not enabled (R101). -/
def notEnabled (i : Instr) (s : State) : Bool :=
  match exec i s with
  | .fault .notEnabled => true
  | _ => false

/-- A configuration with a watchdog limit of 3. -/
def cfgWdt : Config := { toParams := { Params.default with wdtLimit := 3 }, wf := by decide }

/-- A configuration with the view at 0x40. -/
def cfgBase : Config := { toParams := { Params.default with swpeBase := 0x40 }, wf := by decide }

/-- A configuration with the largest ring. -/
def cfgCap32 : Config := { toParams := { Params.default with cap := 32 }, wf := by decide }

/-- A configuration with the unsigned decode. -/
def cfgUnsigned : Config := { toParams := { Params.default with decodeSigned := false }, wf := by decide }

/-- One entry of value `b` in the ring, as a capture leaves it. -/
def oneSample (b : Bool) (s : State) : State :=
  { s with ring := { s.ring with buf := s.ring.buf.set 0 b, head := 1, count := 1 } }

/-- The end of V20: a read slot in flight in phase 4. -/
def readInFlight : State := inFlight .rd true { atPhase 4 with rdPend := true }

/-! ### Well-formedness: an ill-formed term for each check, which the check refuses -/

theorem test_wf_width_refused : (Instr.memRead 0x04 2).wf = false ∧ (Instr.memWrite 0x00 1 3).wf = false := by decide

theorem test_wf_alignment_refused : (Instr.memRead 0x06 4).wf = false ∧ (Instr.memWrite 0x01 4 3).wf = false := by
  decide

theorem test_wf_range_refused : (Instr.memRead 0x40 4).wf = false ∧ (Instr.memWrite 0xFFFFFFFC 4 3).wf = false := by
  decide

theorem test_wf_legal_accepted : (Instr.memRead 0x3C 4).wf = true ∧ (Instr.memWrite 0x00 4 3).wf = true := by decide

/-- R7: "as above", the row of T_READ_SAMPLE. -/
theorem test_config_sample_point_checked : Config.ofParams { Params.default with tReadSample := 0 } = none ∧
    (Config.ofParams { Params.default with tReadSample := 14 }).isSome = true ∧
    Config.ofParams { Params.default with tReadSample := 15 } = none := by decide

theorem test_config_capacity_checked : Config.ofParams { Params.default with cap := 15 } = none ∧
    Config.ofParams { Params.default with cap := 33 } = none ∧
    (Config.ofParams { Params.default with cap := 16 }).isSome = true := by decide

/-! ### Decoding: words written out from R64, R65, R66 -/

theorem test_decode_host : decode (.stim 0b00000001#8) = .ok .init ∧ decode (.stim 0b00000010#8) = .ok .poll := by
  decide

theorem test_decode_edge : decode (.stim 0b00010000#8) = .ok .edgeF ∧ decode (.stim 0b00010001#8) = .ok .edgeR := by
  decide

theorem test_decode_capture :
    decode (.stim 0b00100000#8) = .ok (.tcapRst false) ∧ decode (.stim 0b00101000#8) = .ok (.tcapRst true) ∧
    decode (.stim 0b00100001#8) = .ok (.tcapWr false) ∧ decode (.stim 0b00101001#8) = .ok (.tcapWr true) ∧
    decode (.stim 0b00100010#8) = .ok (.tcapRd false) ∧ decode (.stim 0b00101010#8) = .ok (.tcapRd true) := by
  decide

theorem test_decode_terminal : decode (.stim 0b00110000#8) = .ok .tendRst ∧
    decode (.stim 0b00110001#8) = .ok .tendWr ∧ decode (.stim 0b00110010#8) = .ok .tendRd := by decide

theorem test_decode_arms :
    decode (.arm 0b00000010#8 0b0000#4) = .ok .pollReset ∧ decode (.arm 0b00000010#8 0b0001#4) = .ok .pollPresence ∧
    decode (.arm 0b00000010#8 0b0010#4) = .ok .pollSkiprom ∧ decode (.arm 0b00000010#8 0b0011#4) = .ok .pollConvert ∧
    decode (.arm 0b00000010#8 0b0100#4) = .ok .pollPollconv ∧ decode (.arm 0b00000010#8 0b0101#4) = .ok .pollReadsp ∧
    decode (.arm 0b00000010#8 0b0110#4) = .ok .pollParse ∧ decode (.arm 0b00000010#8 0b0111#4) = .ok .pollDone ∧
    decode (.arm 0b00000010#8 0b1000#4) = .ok .pollError ∧
    decode (.arm 0b00000010#8 0b1001#4) = .error .pollState := by decide

theorem test_decode_command_bytes : decode (.cmd 0b11001100#8) = .ok .skipRom ∧
    decode (.cmd 0b01000100#8) = .ok .convertT ∧ decode (.cmd 0b10111110#8) = .ok .readScratchpad ∧
    decode (.cmd 0x33#8) = .error .commandByte := by decide

theorem test_decode_accesses : decode (.read 0x24#32 4) = .ok (.memRead 0x24#32 4) ∧
    decode (.write 0x00#32 4 2#32) = .ok (.memWrite 0x00#32 4 2#32) := by decide

/-- V57. -/
theorem test_decode_reserved_words :
    [0x00#8, 0x03#8, 0x12#8, 0x23#8, 0x2B#8, 0x33#8, 0x40#8, 0xFF#8].map (fun w => decode (.stim w)) =
      [.error .hostArg, .error .hostArg, .error .edgeArg, .error .timerId, .error .timerId, .error .timerId,
       .error .stimulusClass, .error .stimulusClass] := by decide

theorem test_table_word : decodeTableWord 8 0x2A = some (.tcapRd true) ∧ decodeTableWord 8 0xCC = some .skipRom ∧
    decodeTableWord 8 0x33 = none ∧ decodeTableWord 32 0x04 = some (.memRead 0x04 4) := by decide

/-- V57, by position: the third word of this trace is reserved. -/
theorem test_trace_refused_by_position :
    decodeTrace 0 [0x01#8, 0x02#8, 0x33#8] = .error (2, 0x33#8, .timerId) := by decide

/-- R126. -/
theorem test_decode_temperature :
    [0x0000#16, 0x0008#16, 0x0191#16, 0x07D0#16, 0x7FFF#16, 0x8000#16, 0xFC90#16, 0xFF5E#16, 0xFFFF#16].map
      (fun a => ((decodeTemp true a).toInt, (decodeTemp false a).toInt)) =
    [(0, 0), (8, 8), (401, 401), (2000, 2000), (32767, 32767), (-32768, 32768), (-880, 64656), (-162, 65374),
     (-1, 65535)] := by decide

/-! ### One-step vectors -/

/-- V38: INIT during a read slot. -/
theorem test_init_keeps_the_slot : seen .init readInFlight (fun t =>
    (t.txn, t.rdPend, t.busy, t.tmr.rd.armed, t.tmr.rd.capPend)) = some (0, false, true, true, true) := by decide

/-- V1. -/
theorem test_poll_from_reset : seen .poll State.reset (fun t => (readReg 0x04 t, readReg 0x1C t, t.retry, t.log)) =
    some (0x00000011, 0x00000011, 3, [.rstLow]) := by decide

/-- V3. -/
theorem test_poll_illegal_phase :
    seen .poll (atPhase 9) (fun t => (t.fault, t.txn)) = some (⟨true, false, false⟩, 9) := by decide

/-- V8 and V11. -/
theorem test_edge_fall : seen .edgeF { inFlight .rst false (atPhase 1) with pwin := true } (fun t => t.presSeen) = some true ∧
    unchanged .edgeF { atPhase 2 with txBit := 5 } = true := by decide

/-- V8, the rising edge. -/
theorem test_edge_rise : unchanged .edgeR { inFlight .rst false (atPhase 1) with pwin := true } = true := by decide

/-- V58; and R103 in a constructed state. -/
theorem test_capture_reset_timer : notEnabled (.tcapRst false) State.reset = true ∧
    seen (.tcapRst true) (inFlight .rst true State.reset) (fun t => (t.ring.count, t.tmr.rst.capPend)) =
      some (1, false) := by decide

/-- V58; and R103 in a constructed state. -/
theorem test_capture_write_timer : notEnabled (.tcapWr true) State.reset = true ∧
    seen (.tcapWr true) (inFlight .wr true State.reset) (fun t => (t.ring.count, t.tmr.wr.capPend)) =
      some (1, false) := by decide

/-- V22. -/
theorem test_capture_read_timer : seen (.tcapRd true) readInFlight (fun t =>
    (t.ring.buf.head?, t.ring.head, t.ring.count, readReg 0x1C t, t.log)) =
      some (some true, 1, 1, 0x00000040, [.sample true]) := by decide

/-- V26: the level is forced to 0 while the block drives LOW. -/
theorem test_capture_driven_low : seen (.tcapRd true) { readInFlight with drv := .low } (fun t =>
    (t.ring.buf.head?, t.ring.count, t.log)) = some (some false, 1, [.sample false]) := by decide

/-- V10. -/
theorem test_terminal_reset_timer : seen .tendRst { inFlight .rst false (atPhase 1) with drv := .low, pwin := true }
    (fun t => (t.busy, t.tmr.rst.armed, t.pwin, t.drv)) = some (false, false, false, .low) := by decide

/-- V12b and V58. -/
theorem test_terminal_write_timer : seen .tendWr { inFlight .wr false (atPhase 2) with drv := .high }
      (fun t => (t.drv, t.busy, t.tmr.wr.armed)) = some (.rel, false, false) ∧
    notEnabled .tendWr State.reset = true := by decide

/-- V21, and the terminal event after the capture. -/
theorem test_terminal_read_timer : notEnabled .tendRd readInFlight = true ∧
    seen .tendRd (inFlight .rd false (atPhase 4)) (fun t => (t.busy, t.tmr.rd.armed)) = some (false, false) := by decide

/-- The example of R78. -/
theorem test_poll_reset : seen .pollReset State.reset (fun t => (t.txn, t.retry, t.drv, t.busy, t.log)) =
    some (1, 3, .low, true, [.rstLow]) := by decide

/-- V9. -/
theorem test_poll_presence_seen : seen .pollPresence { atPhase 1 with retry := 0, presSeen := true }
    (fun t => (t.txn, t.presSeen, t.txBit)) = some (2, false, 0) := by decide

/-- V5, its third step, and the example of R79. -/
theorem test_poll_presence_attempts :
    seen .pollPresence { atPhase 1 with retry := 0, drv := .low } (fun t => (t.txn, t.errcode, t.drv)) =
      some (8, .presenceTimeout, .rel) ∧
    seen .pollPresence { atPhase 1 with retry := 1 } (fun t => (t.retry, t.pwin, t.busy)) = some (0, true, true) := by decide

/-- V12. -/
theorem test_poll_skiprom_slot : seen .pollSkiprom { atPhase 2 with txBit := 2 } (fun t =>
    (readReg 0x04 t, readReg 0x0C t, readReg 0x1C t, t.log)) =
      some (0x00000012, 0x03000000, 0x00000022, [.wbit true]) := by decide

/-- V14. -/
theorem test_poll_skiprom_leaves : seen .pollSkiprom { atPhase 2 with txBit := 8 } (fun t => (t.txn, t.txBit, t.log, t.busy)) =
    some (3, 0, [], false) := by decide

/-- V15 and V17. -/
theorem test_poll_convert_flag :
    seen .pollConvert { atPhase 3 with convDone := true } (fun t => (t.txn, t.log)) = some (5, []) ∧
    seen .pollConvert { atPhase 3 with txBit := 3, convDone := true } (fun t => (t.txn, t.txBit, t.log)) =
      some (3, 4, [.wbit false]) := by decide

/-- V16, the settle POLL. -/
theorem test_poll_convert_settles : seen .pollConvert { atPhase 3 with txBit := 8 } (fun t =>
    (t.settle, readReg 0x04 t &&& 0xFFFF)) = some (true, 0x0213) := by decide

/-- V20. -/
theorem test_poll_pollconv_issues : seen .pollPollconv (atPhase 4) (fun t =>
    (readReg 0x04 t, readReg 0x1C t, t.log)) = some (0x00000114, 0x00000440, [.rslot]) := by decide

/-- V24, and V23's last step. -/
theorem test_poll_pollconv_consumes :
    seen .pollPollconv { atPhase 4 with rdPend := true } (fun t => (t.undr, t.txn, t.rdPend)) = some (true, 4, true) ∧
    seen .pollPollconv (oneSample true { atPhase 4 with rdPend := true }) (fun t =>
      (t.txn, t.convDone, t.rdPend, t.ring.head, t.ring.count)) = some (0, true, false, 0, 0) := by decide

/-- V19, and R83's second slot. -/
theorem test_poll_readsp :
    seen .pollReadsp { atPhase 5 with txBit := 8, acc := 0xBEEF, rxBit := 7 } (fun t =>
      (t.txn, t.txBit, t.acc, t.rxBit)) = some (6, 0, 0, 0) ∧
    seen .pollReadsp { atPhase 5 with txBit := 1 } (fun t => (t.drv, t.log)) = some (.high, [.wbit true]) := by decide

/-- V28. -/
theorem test_poll_parse_last_bit : seen .pollParse (oneSample true { atPhase 6 with rxBit := 15, rdPend := true })
    (fun t => (t.acc, t.rxBit, t.txn, t.rdPend, t.ring.tail, t.ring.count)) = some (0x8000, 16, 7, false, 1, 0) := by
  decide

/-- V29. -/
theorem test_poll_parse_zero_bit : seen .pollParse
    (oneSample false { atPhase 6 with rxBit := 3, acc := 0x0001, rdPend := true })
    (fun t => (t.acc, t.rxBit, t.txn, t.ring.tail)) = some (0x0001, 4, 6, 1) := by decide

/-- V31. -/
theorem test_poll_done_reports : seen .pollDone { atPhase 7 with acc := 0x0191, rxBit := 16, convDone := true } (fun t =>
    (readReg 0x04 t, readReg 0x08 t, t.acc, t.log)) =
      some (0x00010407, 0x00000191, 0, [.reportDone 0x00000191]) := by decide

/-- V33, V34. -/
theorem test_poll_done_sign : seen .pollDone { atPhase 7 with acc := 0xFF5E } (fun t => t.temp) = some 0xFFFFFF5E ∧
    seen .pollDone { atPhase 7 with cfg := cfgUnsigned, acc := 0xFF5E } (fun t => t.temp) = some 0x0000FF5E := by decide

/-- V36, V37. -/
theorem test_poll_error_reports : seen .pollError { atPhase 8 with errcode := .presenceTimeout } (fun t =>
      (readReg 0x04 t, t.log)) = some (0x00011808, [.reportErr .presenceTimeout]) ∧
    unchanged .pollError { atPhase 8 with errcode := .presenceTimeout, err := true } = true := by decide

/-- V12. -/
theorem test_command_skip_rom : seen .skipRom { atPhase 2 with txBit := 2 } (fun t => (t.drv, t.txBit, t.log)) =
    some (.high, 3, [.wbit true]) := by decide

/-- R66: bit 6 of 0x44 is 1. -/
theorem test_command_convert : seen .convertT { atPhase 3 with txBit := 6 } (fun t => (t.drv, t.txBit, t.log)) =
    some (.high, 7, [.wbit true]) := by decide

/-- R66: bit 6 of 0xBE is 0. -/
theorem test_command_read_scratchpad : seen .readScratchpad { atPhase 5 with txBit := 6 } (fun t =>
    (t.drv, t.txBit, t.log)) = some (.low, 7, [.wbit false]) := by decide

/-- V41. -/
theorem test_reads_after_reset :
    [0x04, 0x08, 0x0C, 0x10, 0x18, 0x1C, 0x20, 0x24, 0x00, 0x28].map (fun off => seen (.memRead off 4) State.reset
      (fun t => t.busData)) =
    [some (some 0), some (some 0), some (some 0), some (some 0), some (some 3), some (some 0),
     some (some 0x00011003), some (some 0), some (some 0), some (some 0)] := by decide

/-- V43, V44. -/
theorem test_bad_reads : [(0x04, 2), (0x06, 4), (0x40, 4)].map (fun a => seen (.memRead a.1 a.2) State.reset
    (fun t => t.fault)) = List.replicate 3 (some ⟨false, false, true⟩) := by decide

/-- V40. -/
theorem test_ctrl_init_then_poll : seen (.memWrite 0x00 4 0x00000003)
    { atPhase 7 with done := true, temp := 0x191, log := [.reportDone 0x191] }
    (fun t => ((t.txn, t.done, t.busy, t.drv), t.temp, t.log)) =
      some ((1, false, true, .low), 0x191, [.reportDone 0x191, .rstLow]) := by decide

/-- V42, V45. -/
theorem test_ignored_writes : unchanged (.memWrite 0x04 4 0xFFFFFFFF) State.reset = true ∧
    unchanged (.memWrite 0x3C 4 1) State.reset = true ∧ unchanged (.memWrite 0x00 4 0xFFFFFFFC) State.reset = true := by
  decide

/-- V46, V47, V51. -/
theorem test_ring_wraps :
    (fun r : Ring => (r.head, r.count, r.buf[15]?)) (({ State.reset.ring with head := 15, tail := 12, count := 3 } :
      Ring).push 16 true) = (0, 4, some true) ∧
    (fun r : Ring => (r.tail, r.count)) (({ State.reset.ring with head := 1, tail := 15, count := 2 } :
      Ring).dropOldest 16) = (0, 1) ∧
    (fun t : State => (t.ring.head, (readReg 0x14 t).getLsbD 31)) (push true { State.powerOn cfgCap32 Unspecified.zero
      with ring := { buf := List.replicate 32 false, head := 31, tail := 31, count := 0 } }) = (0, true) := by decide

/-- V50, V52. -/
theorem test_ring_empties :
    (fun t : State => (t.ring.head, t.ring.tail, t.ring.count)) (flush { State.reset with
      ring := { State.reset.ring with head := 5, tail := 4, count := 1 } }) = (5, 5, 0) ∧
    (fun t : State => (t.ring.head, t.ring.tail, t.ring.count)) (resetCursors { State.reset with
      ring := { State.reset.ring with head := 9, tail := 7, count := 2 } }) = (0, 0, 0) := by decide

/-- V53, and the second step of V54. -/
theorem test_watchdog :
    seen .poll { atPhase 2 with cfg := cfgWdt, wdt := 2 } (fun t => (t.wdt, t.busy)) = some (0, true) ∧
    seen .poll { inFlight .wr false (atPhase 2) with cfg := cfgWdt, wdt := 2, drv := .low } (fun t =>
      (t.wdt, t.txn, t.errcode, t.drv, t.busy, t.tmr.wr.armed)) = some (0, 8, .stall, .rel, true, true) := by decide

/-- V56. -/
theorem test_double_arm : seen .poll { atPhase 2 with tmr := { State.reset.tmr with wr := running false } } (fun t =>
    (t.fault, t.busy, t.txBit, t.log)) = some (⟨false, true, false⟩, false, 0, []) := by decide

/-! ### Witnesses: the hypotheses of the obligations can be met -/

/-- No fault is recorded in the states the witnesses are built from. -/
theorem witness_unfaulted : State.reset.fault = FaultSet.empty ∧ readInFlight.fault = FaultSet.empty := by decide

theorem witness_StepRunsTheDecodedInput :
    { State.reset with trace := [.word 0x02] }.trace = .word 0x02 :: [] ∧ decode (.stim 0x02) = .ok .poll ∧
    { State.reset with trace := [.hostRead 0x3C 4] }.trace = .hostRead 0x3C 4 :: [] ∧
    { State.reset with trace := [.hostWrite 0 4 3] }.trace = .hostWrite 0 4 3 :: [] := by decide

theorem witness_ReservedWordIsRefusedByNameAndPosition :
    { State.reset with trace := [.word 0xFF] }.trace = .word 0xFF :: [] ∧
    decode (.stim 0xFF) = .error .stimulusClass ∧ State.reset.trace = [] := by decide

theorem witness_PlacedWordIsTheNextInstruction : decodeTableWord 8 0x01 = some .init ∧
    decodeTableWord 8 0x44 = some .convertT := by decide

theorem witness_PowerOnResetSetsTheListedValues : { readInFlight with trace := [.powerOn Unspecified.zero] }.trace =
    .powerOn Unspecified.zero :: [] ∧ 15 < readInFlight.cfg.cap := by decide

theorem witness_InitWritesExactlyItsFieldsAndIsIdempotent : readInFlight.fault = FaultSet.empty ∧
    ∃ t, exec .init readInFlight = .next t := ⟨by decide, _, rfl⟩

theorem witness_FaultedStateHasNoStep : (State.reset.raise .badAccess).fault ≠ FaultSet.empty := by decide

theorem witness_IllegalPhaseRecordsAFaultAndIsNeverWritten :
    ((atPhase 9).fault = FaultSet.empty ∧ 9 ≤ (atPhase 9).txn.toNat ∧ 9 ≤ (atPhase 15).txn.toNat) ∧
    exec .edgeR (atPhase 15) = .next (atPhase 15) := ⟨by decide, rfl⟩

/-- One state for the reset-timer clauses, one for the write-timer clauses, one for the read-timer clauses. -/
theorem witness_DoubleArmVoidsTheWholeStep :
    (∀ txn ∈ [0#4, 1#4, 3#4], ∃ s : State, s.fault = FaultSet.empty ∧ s.busy = false ∧ s.txn = txn ∧
      s.presSeen = false ∧ s.retry ≠ 0 ∧ 8 ≤ s.txBit.toNat ∧ s.settle = false ∧ s.tmr.rst.armed = true) ∧
    (∀ txn ∈ [2#4, 3#4, 5#4], ∃ s : State, s.fault = FaultSet.empty ∧ s.busy = false ∧ s.txn = txn ∧
      s.txBit.toNat < 8 ∧ ¬(s.txBit = 0 ∧ s.settle = false ∧ s.convDone = true) ∧ s.convDone = true ∧
      s.tmr.wr.armed = true) ∧
    (∀ txn ∈ [4#4, 6#4], ∃ s : State, s.fault = FaultSet.empty ∧ s.busy = false ∧ s.txn = txn ∧
      s.rdPend = false ∧ s.rxBit.toNat < 16 ∧ s.tmr.rd.armed = true) := by
  refine ⟨fun txn _ => ?_, fun txn _ => ?_, fun txn _ => ?_⟩
  · exact ⟨{ inFlight .rst false (atPhase txn) with busy := false, txBit := 8 }, rfl, rfl, rfl, rfl,
      show 3#8 ≠ 0 by decide, show 8 ≤ (8#4).toNat by decide, rfl, rfl⟩
  · exact ⟨{ inFlight .wr false (atPhase txn) with busy := false, txBit := 7, convDone := true }, rfl, rfl, rfl,
      show (7#4).toNat < 8 by decide, fun h => absurd h.1 (show ¬7#4 = 0 by decide), rfl, rfl⟩
  · exact ⟨{ inFlight .rd false (atPhase txn) with busy := false, rxBit := 15 }, rfl, rfl, rfl, rfl,
      show (15#5).toNat < 16 by decide, rfl⟩

theorem witness_BadAccessRecordsAFaultAndNothingElse : State.reset.fault = FaultSet.empty ∧
    (2 ≠ 4 ∧ (0x06#32).toNat % 4 ≠ 0 ∧ 0x40 ≤ (0x40#32).toNat) := by decide

theorem witness_AddressOutsideTheViewIsABadAccess :
    (State.powerOn cfgBase Unspecified.zero).fault = FaultSet.empty ∧
    { State.powerOn cfgBase Unspecified.zero with trace := [.hostRead 0x3C 4] }.trace = .hostRead 0x3C 4 :: [] ∧
    { State.powerOn cfgBase Unspecified.zero with trace := [.hostWrite 0x80 4 3] }.trace = .hostWrite 0x80 4 3 :: [] ∧
    (0x3C#32).toNat < cfgBase.swpeBase.toNat ∧ cfgBase.swpeBase.toNat + 64 ≤ (0x80#32).toNat := by decide

theorem witness_PollRunsTheArmOfItsPhase : (∀ txn : BitVec 4, (atPhase txn).txn = txn) ∧
    (atPhase 9).fault = FaultSet.empty ∧ 9 ≤ (atPhase 9).txn.toNat := ⟨fun _ => rfl, by decide⟩

theorem witness_ArmStopsWhereItsPhaseIsNotSelected : (atPhase 15).fault = FaultSet.empty ∧
    [0, 1, 2, 3, 4, 5, 6, 7, 8].all (fun txn => decide ((atPhase 15).txn ≠ txn)) = true := by decide

theorem witness_BusyPollOnlyTicksTheWatchdog :
    ((inFlight .rd true (atPhase 6)).fault = FaultSet.empty ∧ (inFlight .rd true (atPhase 6)).txn.toNat ≤ 6 ∧
      (inFlight .rd true (atPhase 6)).busy = true) ∧
    (∃ t, exec .poll (atPhase 7) = .next t) ∧ ∃ t, exec .poll (atPhase 8) = .next t := ⟨by decide, ⟨_, rfl⟩, ⟨_, rfl⟩⟩

theorem witness_UnderrunIsASoftNoOp : [4, 6].all (fun txn =>
    decide ({ atPhase txn with rdPend := true }.fault = FaultSet.empty ∧ { atPhase txn with rdPend := true }.busy = false ∧
      { atPhase txn with rdPend := true }.rdPend = true ∧ { atPhase txn with rdPend := true }.ring.count = 0)) = true := by decide

theorem witness_ResetArmStartsTheResetPulse : (atPhase 0).fault = FaultSet.empty ∧ (atPhase 0).txn = 0 ∧
    (atPhase 0).busy = false ∧ (atPhase 0).tmr.rst.armed = false := by decide

theorem witness_PresenceArmTestsThenDecrements : (atPhase 1).fault = FaultSet.empty ∧ (atPhase 1).txn = 1 ∧
    (atPhase 1).busy = false ∧ { atPhase 1 with presSeen := true }.presSeen = true ∧
    ((atPhase 1).presSeen = false ∧ { atPhase 1 with retry := 0 }.retry = 0) ∧
    ({ atPhase 1 with retry := 1 }.retry ≠ 0 ∧ (atPhase 1).tmr.rst.armed = false) := by decide

theorem witness_SkipRomArmSendsThenLeaves : (atPhase 2).fault = FaultSet.empty ∧ (atPhase 2).txn = 2 ∧
    (atPhase 2).busy = false ∧ ({ atPhase 2 with txBit := 7 }.txBit.toNat < 8 ∧ (atPhase 2).tmr.wr.armed = false) ∧
    8 ≤ { atPhase 2 with txBit := 8 }.txBit.toNat := by decide

theorem witness_ConvertArmSkipsSendsSettlesOrLeaves : (atPhase 3).fault = FaultSet.empty ∧ (atPhase 3).txn = 3 ∧
    (atPhase 3).busy = false ∧
    ((atPhase 3).txBit = 0 ∧ (atPhase 3).settle = false ∧ { atPhase 3 with convDone := true }.convDone = true) ∧
    (¬((atPhase 3).txBit = 0 ∧ (atPhase 3).settle = false ∧ (atPhase 3).convDone = true) ∧ (atPhase 3).txBit.toNat < 8 ∧
      (atPhase 3).tmr.wr.armed = false) ∧
    (8 ≤ { atPhase 3 with txBit := 8 }.txBit.toNat ∧ (atPhase 3).tmr.rst.armed = false) ∧
    { atPhase 3 with txBit := 8, settle := true }.settle = true := by decide

theorem witness_PollConversionArmReadsUntilASampledOne : (atPhase 4).fault = FaultSet.empty ∧ (atPhase 4).txn = 4 ∧
    (atPhase 4).busy = false ∧ ((atPhase 4).rdPend = false ∧ (atPhase 4).tmr.rd.armed = false) ∧
    [true, false].all (fun b => decide ((oneSample b { atPhase 4 with rdPend := true }).rdPend = true ∧
      (oneSample b { atPhase 4 with rdPend := true }).ring.count ≠ 0 ∧
      (oneSample b { atPhase 4 with rdPend := true }).ring.buf[
        (oneSample b { atPhase 4 with rdPend := true }).ring.tail.toNat]? = some b)) = true ∧
    { atPhase 4 with rdPend := true }.ring.count = 0 := by decide

theorem witness_ReadScratchpadArmSendsThenLeaves : (atPhase 5).fault = FaultSet.empty ∧ (atPhase 5).txn = 5 ∧
    (atPhase 5).busy = false ∧ ({ atPhase 5 with txBit := 7 }.txBit.toNat < 8 ∧ (atPhase 5).tmr.wr.armed = false) ∧
    8 ≤ { atPhase 5 with txBit := 8 }.txBit.toNat := by decide

theorem witness_ParseArmAccumulatesSixteenBits : (atPhase 6).fault = FaultSet.empty ∧ (atPhase 6).txn = 6 ∧
    (atPhase 6).busy = false ∧ ((atPhase 6).rdPend = false ∧ { atPhase 6 with rxBit := 15 }.rxBit.toNat < 16 ∧
      (atPhase 6).tmr.rd.armed = false) ∧ 16 ≤ { atPhase 6 with rxBit := 16 }.rxBit.toNat ∧
    ((oneSample true { atPhase 6 with rdPend := true, rxBit := 15 }).rdPend = true ∧
      (oneSample true { atPhase 6 with rdPend := true, rxBit := 15 }).ring.count ≠ 0 ∧
      (oneSample true { atPhase 6 with rdPend := true, rxBit := 15 }).ring.buf[
        (oneSample true { atPhase 6 with rdPend := true, rxBit := 15 }).ring.tail.toNat]? = some true ∧
      16 ≤ (oneSample true { atPhase 6 with rdPend := true, rxBit := 16 }).rxBit.toNat) ∧
    { atPhase 6 with rdPend := true }.ring.count = 0 := by decide

theorem witness_DoneArmReportsOnce : (atPhase 7).fault = FaultSet.empty ∧ (atPhase 7).txn = 7 ∧ (atPhase 7).done = false ∧
    { atPhase 7 with done := true }.done = true := by decide

theorem witness_ErrorArmReportsOnce : (atPhase 8).fault = FaultSet.empty ∧ (atPhase 8).txn = 8 ∧ (atPhase 8).err = false ∧
    { atPhase 8 with err := true }.err = true := by decide

theorem witness_CommandByteStepSendsItsNextBit : { atPhase 2 with txBit := 7 }.fault = FaultSet.empty ∧
    { atPhase 2 with txBit := 7 }.busy = false ∧ { atPhase 2 with txBit := 7 }.txBit.toNat < 8 ∧
    { atPhase 2 with txBit := 7 }.tmr.wr.armed = false ∧ (atPhase 2).txn = 2 ∧
    ((atPhase 3).txn = 3 ∧ ¬((atPhase 3).txBit = 0 ∧ (atPhase 3).settle = false ∧ (atPhase 3).convDone = true)) ∧
    (atPhase 5).txn = 5 := by decide

theorem witness_CommandByteStopsWhereItIsNotSent : (atPhase 0).fault = FaultSet.empty ∧ (atPhase 0).txn ≠ 2 ∧
    (atPhase 0).txn ≠ 3 ∧ (atPhase 0).txn ≠ 5 ∧ (inFlight .wr false (atPhase 2)).busy = true ∧
    8 ≤ { atPhase 2 with txBit := 8 }.txBit.toNat ∧
    ((atPhase 3).txBit = 0 ∧ (atPhase 3).settle = false ∧ { atPhase 3 with convDone := true }.convDone = true) := by decide

theorem witness_FallingEdgeIsSeenOnlyInsideTheWindow : (atPhase 1).fault = FaultSet.empty ∧
    ({ atPhase 1 with pwin := true }.txn = 1 ∧ { atPhase 1 with pwin := true }.pwin = true) ∧
    ¬((atPhase 1).txn = 1 ∧ (atPhase 1).pwin = true) := by decide

/-- For each timer; the sample is the level on a released line and 0 on one driven low. -/
theorem witness_EnabledCapturePushesTheSample : ∀ id : TimerId, (inFlight id true (atPhase 4)).fault = FaultSet.empty ∧
    ((inFlight id true (atPhase 4)).tmr.get id).armed = true ∧ ((inFlight id true (atPhase 4)).tmr.get id).capPend = true ∧
    true = (if (inFlight id true (atPhase 4)).drv = .low then false else true) ∧
    false = (if { inFlight id true (atPhase 4) with drv := .low }.drv = .low then false else true) := by
  intro id
  cases id <;> decide

theorem witness_EnabledTerminalClearsBusy : ∀ id : TimerId, (inFlight id false (atPhase 4)).fault = FaultSet.empty ∧
    ((inFlight id false (atPhase 4)).tmr.get id).armed = true ∧
    ((inFlight id false (atPhase 4)).tmr.get id).capPend = false := by
  intro id
  cases id <;> decide

theorem witness_TimerStimulusNotEnabledHasNoStep : ∀ id : TimerId, State.reset.fault = FaultSet.empty ∧
    ¬((State.reset.tmr.get id).armed = true ∧ (State.reset.tmr.get id).capPend = true) ∧
    ¬((State.reset.tmr.get id).armed = true ∧ (State.reset.tmr.get id).capPend = false) := by
  intro id
  cases id <;> decide

theorem witness_LegalReadReturnsTheRegister : State.reset.fault = FaultSet.empty ∧ (0x3C#32).toNat % 4 = 0 ∧
    (0x3C#32).toNat < 0x40 := by decide

theorem witness_LegalWriteStrobesInitThenPoll : State.reset.fault = FaultSet.empty ∧
    ((4#32).getLsbD 0 = false ∧ (4#32).getLsbD 1 = false) ∧ ((1#32).getLsbD 0 = true ∧ (1#32).getLsbD 1 = false) ∧
    ((2#32).getLsbD 0 = false ∧ (2#32).getLsbD 1 = true) ∧ ((3#32).getLsbD 0 = true ∧ (3#32).getLsbD 1 = true) ∧
    (0x3C#32 ≠ 0 ∧ (0x3C#32).toNat % 4 = 0 ∧ (0x3C#32).toNat < 0x40) ∧
    (1 ≠ 4 ∧ (0x3D#32).toNat % 4 ≠ 0 ∧ 0x40 ≤ (0x40#32).toNat) := by decide

theorem witness_TempConfigAndReservedOffsetsRead : 0x28 ≤ (0x28#32).toNat ∧ (0x3C#32).toNat < 0x40 := by decide

theorem witness_RingDataShowsTheEntries : State.reset.ring.buf.length = State.reset.cfg.cap ∧
    15 < State.reset.cfg.cap ∧ State.reset.cfg.cap ≤ 16 := by decide

/-- The ring at reset, and a full ring. -/
theorem witness_RingIsABoundedQueue : State.reset.ring.Wf State.reset.cfg.cap ∧
    Ring.Wf 16 { State.reset.ring with count := 16 } :=
  ⟨⟨by decide, by decide, by decide, by decide, by decide⟩, ⟨by decide, by decide, by decide, by decide, by decide⟩⟩

theorem witness_RingKeepsTheLastCapacityBits : State.reset.ring.Wf State.reset.cfg.cap ∧
    State.reset.ring.count = 0 ∧ (List.replicate 17 true).length = State.reset.cfg.cap + 1 :=
  ⟨witness_RingIsABoundedQueue.1, by decide, by decide⟩

theorem witness_PhaseTransitionsAreThoseOfTheTable :
    ({ atPhase 2 with txBit := 8 }.txBit.toNat ≤ 8 ∧ { atPhase 6 with rxBit := 16 }.rxBit.toNat ≤ 16) ∧
    (∃ t, exec .poll { atPhase 2 with txBit := 8 } = .next t) ∧ (∃ t, exec .init (atPhase 5) = .next t) ∧
    (Instr.edgeF.context = .isr ∧ exec .edgeF (atPhase 2) = .next (atPhase 2)) ∧
    (∃ t, exec (.memRead 0x04 4) (atPhase 2) = .next t) ∧ exec (.memWrite 0x04 4 3) (atPhase 2) = .next (atPhase 2) :=
  ⟨by decide, ⟨_, rfl⟩, ⟨_, rfl⟩, ⟨rfl, rfl⟩, ⟨_, rfl⟩, rfl⟩

theorem witness_OnlyInitLeavesDoneOrError : ((atPhase 7).txn = 7 ∧ ∃ t, exec .init (atPhase 7) = .next t) ∧
    ((atPhase 8).txn = 8 ∧ ∃ t, exec (.memWrite 0 4 3) (atPhase 8) = .next t) := ⟨⟨rfl, _, rfl⟩, ⟨rfl, _, rfl⟩⟩

theorem witness_IsrContextWritesOnlyItsFields : (Instr.tcapRd true).context = .isr ∧
    ∃ t, exec (.tcapRd true) readInFlight = .next t := ⟨rfl, _, rfl⟩

theorem witness_PollContextWritesOnlyItsFields : Instr.poll.context = .poll ∧
    ∃ t, exec .poll (oneSample true { atPhase 4 with rdPend := true }) = .next t := ⟨rfl, _, rfl⟩

theorem witness_BusyIsSetWithAnArmAndClearedByATerminal :
    (∃ t, exec .poll State.reset = .next t ∧ State.reset.busy = false ∧ t.busy = true) ∧
    ∃ t, exec .tendRd (inFlight .rd false (atPhase 4)) = .next t ∧ (inFlight .rd false (atPhase 4)).busy = true ∧
      t.busy = false := ⟨⟨_, rfl, rfl, rfl⟩, ⟨_, rfl, rfl, rfl⟩⟩

theorem witness_PollPerformsAtMostOneAction : (∃ t, exec .poll (atPhase 0) = .next t) ∧
    (∃ t, exec .poll readInFlight = .next t) ∧ readInFlight.txn.toNat ≤ 6 ∧ readInFlight.busy = true ∧
    (readInFlight.tmr.get .rd).armed = true := ⟨⟨_, rfl⟩, ⟨_, rfl⟩, by decide, rfl, rfl⟩

theorem witness_InterruptRisesAtAReportAndFallsAtInit :
    (∃ t, exec .poll (atPhase 7) = .next t ∧ irqOut (atPhase 7) = false ∧ irqOut t = true) ∧
    (∃ t, exec .poll (atPhase 8) = .next t ∧ irqOut (atPhase 8) = false ∧ irqOut t = true) ∧
    ∃ t, exec .init { atPhase 8 with err := true } = .next t ∧ irqOut { atPhase 8 with err := true } = true ∧
      irqOut t = false := ⟨⟨_, rfl, rfl, rfl⟩, ⟨_, rfl, rfl, rfl⟩, ⟨_, rfl, rfl, rfl⟩⟩

theorem witness_EndedWellIsQuietUnderPoll : { atPhase 7 with done := true }.endedWell = true ∧
    { atPhase 8 with err := true }.endedWell = true := by decide

theorem witness_LinesShareNoState : ∃ ls', stepLine 0 [{ State.reset with trace := [.word 0x02] }, State.reset] =
    some (.next ls') := ⟨_, rfl⟩

/-- The invariant holds of the end of V20: a read slot in flight, its capture pending. -/
theorem inv_readInFlight : readInFlight.Inv :=
  ⟨⟨by decide, by decide, by decide, by decide, by decide, by decide, by decide, by decide, by decide, by decide,
    by decide, by decide⟩,
   ⟨⟨by decide, by decide, by decide, by decide, by decide⟩, by decide, by decide, by decide, by decide, by decide,
    by decide, by decide⟩⟩

theorem witness_EveryStepKeepsTheInvariant : State.Inv { readInFlight with trace := [.word 0x2A] } ∧
    ∃ t, step { readInFlight with trace := [.word 0x2A] } = .next t :=
  ⟨⟨⟨inv_readInFlight.engine.phase, inv_readInFlight.engine.txBit, inv_readInFlight.engine.rxBit,
      inv_readInFlight.engine.busyArmed, inv_readInFlight.engine.oneArmed, inv_readInFlight.engine.rstCapture,
      inv_readInFlight.engine.wrCapture, inv_readInFlight.engine.rdCapture, inv_readInFlight.engine.window,
      inv_readInFlight.engine.released, inv_readInFlight.engine.retry, inv_readInFlight.engine.watchdog⟩,
    ⟨inv_readInFlight.rings.ring, inv_readInFlight.rings.oneSample, inv_readInFlight.rings.noSample,
      inv_readInFlight.rings.sample, inv_readInFlight.rings.noUnderrun, inv_readInFlight.rings.noOverflow,
      inv_readInFlight.rings.noIllegalState, inv_readInFlight.rings.noDoubleArm⟩⟩, _, rfl⟩

theorem witness_ReachableCaptureSamplesTheDevice : readInFlight.Inv ∧ readInFlight.fault = FaultSet.empty ∧
    readInFlight.tmr.rd.capPend = true := ⟨inv_readInFlight, by decide, by decide⟩

end Sys2Proof.Tests
end

section
/-! PROOFS. The register view (20_memory.md): what a field of a register shows, what each register shows, and the
access R50 refuses. -/

namespace Sys2Proof.Machine

/-! ### Fields of a register

A register is an `or` of fields. A range of bits that is one field's own shows that field, and a range no part of a
field lies in shows nothing of it; so of the `or` only the field at that range is left. -/

@[simp] theorem field_extractLsb'_self {n lo : Nat} (h : lo + n ≤ 32) (v : BitVec n) :
    (field lo v).extractLsb' lo n = v := by
  ext i hi
  have hlt : lo + i < 32 := by omega
  simp [field, hlt, BitVec.getLsbD_eq_getElem hi]

@[simp] theorem field_extractLsb'_disjoint {n lo start len : Nat} (h : start + len ≤ lo ∨ lo + n ≤ start)
    (v : BitVec n) : (field lo v).extractLsb' start len = 0#len := by
  ext i hi
  rcases h with hbelow | habove
  · have hlt : start + i < lo := by omega
    simp [field, hlt]
  · have hge : n ≤ start + i - lo := by omega
    simp [field, BitVec.getLsbD_of_ge v _ hge]

@[simp] theorem flag_extractLsb'_disjoint {lo start len : Nat} (h : start + len ≤ lo ∨ lo + 1 ≤ start) (b : Bool) :
    (flag lo b).extractLsb' start len = 0#len :=
  field_extractLsb'_disjoint h _

@[simp] theorem field_getElem_disjoint {n lo i : Nat} (hi : i < 32) (h : i < lo ∨ lo + n ≤ i) (v : BitVec n) :
    (field lo v)[i] = false := by
  rcases h with hbelow | habove
  · simp [field, hbelow]
  · have hge : n ≤ i - lo := by omega
    simp [field, BitVec.getLsbD_of_ge v _ hge]

@[simp] theorem flag_getElem_self {lo : Nat} (h : lo < 32) (b : Bool) : (flag lo b)[lo] = b := by
  simp [flag, field]

@[simp] theorem flag_getElem_ne {lo i : Nat} (hi : i < 32) (h : i ≠ lo) (b : Bool) : (flag lo b)[i] = false :=
  field_getElem_disjoint hi (by omega) _

theorem ErrCode.code_eq_ite (c : ErrCode) :
    c.code = if c = .none then 0#2 else if c = .presenceTimeout then 1#2 else 2#2 := by
  cases c <;> rfl

theorem Drive.code_eq_ite (d : Drive) : d.code = if d = .rel then 0#2 else if d = .low then 1#2 else 2#2 := by
  cases d <;> rfl

/-! ### The register at each offset (R38) -/

@[simp] theorem readReg_ctrl (s : State) : readReg 0x00#32 s = 0 := rfl
@[simp] theorem readReg_status (s : State) : readReg 0x04#32 s = regStatus s := rfl
@[simp] theorem readReg_temp (s : State) : readReg 0x08#32 s = s.temp := rfl
@[simp] theorem readReg_acc (s : State) : readReg 0x0C#32 s = regAcc s := rfl
@[simp] theorem readReg_ring (s : State) : readReg 0x10#32 s = regRing s := rfl
@[simp] theorem readReg_retry (s : State) : readReg 0x18#32 s = regRetry s := rfl
@[simp] theorem readReg_line (s : State) : readReg 0x1C#32 s = regLine s := rfl
@[simp] theorem readReg_config (s : State) : readReg 0x20#32 s = regConfig s := rfl
@[simp] theorem readReg_wdtCfg (s : State) : readReg 0x24#32 s = regWdtCfg s := rfl

/-- R49: past WDTCFG there is no register. -/
theorem readReg_of_reserved {off : BitVec 32} (h : 0x28 ≤ off.toNat) (s : State) : readReg off s = 0 := by
  unfold readReg
  split
  case h_10 => rfl
  all_goals omega

/-! ### CONFIG and RINGDATA -/

/-- The six bits CONFIG has for `CAP` hold every capacity (R7). -/
theorem Config.ofNat_cap_toNat (c : Config) : (BitVec.ofNat 6 c.cap).toNat = c.cap := by
  obtain ⟨-, hcap⟩ := Config.cap_bounds c
  exact (BitVec.toNat_ofNat _ _).trans (Nat.mod_eq_of_lt (by omega))

/-- A bit of RINGDATA, by the ring's storage; no capacity exceeds the register's 32 bits (R8). -/
theorem regRingData_getLsbD {s : State} (hlen : s.ring.buf.length = s.cfg.cap) (i : Nat) :
    (regRingData s).getLsbD i = s.ring.buf.getD i false := by
  obtain ⟨-, hcap⟩ := Config.cap_bounds s.cfg
  have htake : s.ring.buf.take s.cfg.cap = s.ring.buf := List.take_of_length_le hlen.le
  rw [regRingData, htake, BitVec.getLsbD_setWidth, BitVec.getLsbD_ofBoolListLE]
  by_cases hi : i < 32
  · simp [hi]
  · have hout : s.ring.buf.length ≤ i := by omega
    simp [hi, List.getElem?_eq_none hout]

theorem Ring.powerOn_getD {cap i : Nat} (hi : i < cap) (u : BitVec 32) :
    (Ring.powerOn cap u).buf.getD i false = u.getLsbD i := by
  simp [Ring.powerOn, hi]

theorem State.powerOn_ring_length (cfg : Config) (u : Unspecified) :
    (State.powerOn cfg u).ring.buf.length = (State.powerOn cfg u).cfg.cap :=
  have hpos : 0 < cfg.cap := Nat.lt_of_lt_of_le (by decide) (Config.cap_bounds cfg).1
  (Ring.Wf.powerOn hpos u.buf).length

/-! ### The accesses R50 refuses -/

theorem accessLegal_eq_false_iff {off : BitVec 32} {width : Nat} :
    accessLegal off width = false ↔ width ≠ 4 ∨ off.toNat % 4 ≠ 0 ∨ 0x40 ≤ off.toNat := by
  simp only [accessLegal, accessWidthOk, accessAligned, accessInView, Bool.and_eq_false_iff, decide_eq_false_iff_not,
    Nat.not_lt, or_assoc]

/-- The first reason recorded is the only one. -/
theorem raise_badAccess_of_unfaulted {s : State} (hs : s.fault = FaultSet.empty) :
    s.raise .badAccess = { s with fault := ⟨false, false, true⟩ } := by
  rw [State.raise, hs]
  rfl

theorem exec_memRead_of_illegal {off : BitVec 32} {width : Nat} {s : State} (hs : s.fault = FaultSet.empty)
    (h : accessLegal off width = false) : exec (.memRead off width) s = .next (s.raise .badAccess) := by
  have haction : readAccess off width s = .error .badAccess := if_neg (by simp [h])
  exact perform_of_error hs haction

theorem exec_memWrite_of_illegal {off : BitVec 32} {width : Nat} {s : State} (hs : s.fault = FaultSet.empty)
    (h : accessLegal off width = false) (value : Word) :
    exec (.memWrite off width value) s = .next (s.raise .badAccess) := by
  simp [exec, execMemWrite, hs, h]

end Sys2Proof.Machine

namespace Sys2Proof.Proofs

open Sys2Proof.Machine

/-- Settles O45: a bit of RINGDATA is the storage's, past the storage 0; the power-on ring has a storage of `CAP`
entries. -/
theorem ringDataShowsTheEntries : Obligations.RingDataShowsTheEntries := by
  refine ⟨fun s i hlen => ?_, fun cfg u i hi => ?_⟩
  · have hbit : (readReg 0x14 s).getLsbD i = s.ring.buf.getD i false := regRingData_getLsbD hlen i
    rw [hbit, ← hlen]
    refine ⟨fun hin => ?_, fun hout => List.getD_eq_default _ _ hout⟩
    rw [List.getElem?_eq_getElem hin, List.getD_eq_getElem _ _ hin]
  · exact (regRingData_getLsbD (State.powerOn_ring_length cfg u) i).trans (Ring.powerOn_getD hi u.buf)

/-- Settles O15: the read and the write both test `accessLegal`, which fails in each of the three ways. -/
theorem badAccessRecordsAFaultAndNothingElse : Obligations.BadAccessRecordsAFaultAndNothingElse := by
  intro s off width value hs hbad
  have hillegal : accessLegal off width = false := accessLegal_eq_false_iff.2 hbad
  rw [← raise_badAccess_of_unfaulted hs]
  exact ⟨exec_memRead_of_illegal hs hillegal, exec_memWrite_of_illegal hs hillegal value⟩

/-- Settles O41: at the bits of each field every other field of STATUS is disjoint. -/
theorem statusShowsItsFields : Obligations.StatusShowsItsFields := by
  intro s
  simp [regStatus, irqOut, BitVec.extractLsb'_or, ErrCode.code_eq_ite]

/-- Settles O42, register by register. -/
theorem accRingAndRetryShowTheirFields : Obligations.AccRingAndRetryShowTheirFields := by
  refine fun s => ⟨?acc, ?ring, ?retry⟩
  case acc => simp [regAcc, BitVec.extractLsb'_or]
  case ring => simp [regRing, BitVec.extractLsb'_or]
  case retry => simp [regRetry, BitVec.extractLsb'_or]

/-- Settles O43: at the bits of each field every other field of LINE is disjoint. -/
theorem lineShowsDriverAndTimers : Obligations.LineShowsDriverAndTimers := by
  intro s
  simp [regLine, BitVec.extractLsb'_or, Drive.code_eq_ite]

/-- Settles O44, register by register; the `CAP` field has room for every capacity. -/
theorem tempConfigAndReservedOffsetsRead : Obligations.TempConfigAndReservedOffsetsRead := by
  refine fun s => ⟨readReg_temp s, ⟨?retryN, ?cap, ?rest⟩, ?wdtCfg, readReg_ctrl s,
    fun off h _ => readReg_of_reserved h s⟩
  case retryN => simp [regConfig, BitVec.extractLsb'_or]
  case cap =>
    have hfield : (regConfig s).extractLsb' 8 6 = BitVec.ofNat 6 s.cfg.cap := by
      simp [regConfig, BitVec.extractLsb'_or]
    exact (congrArg BitVec.toNat hfield).trans (Config.ofNat_cap_toNat s.cfg)
  case rest => simp [regConfig, BitVec.extractLsb'_or]
  case wdtCfg => simp [regWdtCfg]

end Sys2Proof.Proofs
end

section
/-! PROOFS. The engine's arms (40_engine_fsm.md): what each arm answers in each of its branches (R78 to R86), and the
POLL and arm instructions as steps of those answers (R72, R73). -/

namespace Sys2Proof.Machine

/-! ### An arm as a step -/

/-- The step of a line state's arm that answers `r`: POLL's treatment of `r` (R72). -/
theorem performArm_lineStep_of_ok {p : Phase} {armOf : State → Except FaultReason (Progress × State)}
    {s t : State} {r : Progress × State} (hf : s.fault = FaultSet.empty) (ht : s.txn = p.code)
    (hb : s.busy = false) (harm : armOf s = .ok r) (hr : afterArm r = t) :
    performArm p (lineStep armOf) s = .next t := by
  rw [performArm_of_selected ht, perform_lineStep_ok hf hb harm, hr]

theorem perform_total_eq_next_iff {f : State → State} {s t : State} :
    perform (fun s => .ok (f s)) s = .next t ↔ s.fault = FaultSet.empty ∧ f s = t := by
  simp [perform_eq_next_iff]

/-- The step of an arm that raises no fault and is not gated by busy (R73). -/
theorem performArm_of_total {p : Phase} {f : State → State} {s t : State} (hf : s.fault = FaultSet.empty)
    (ht : s.txn = p.code) (hfs : f s = t) : performArm p (fun s => .ok (f s)) s = .next t :=
  (performArm_of_selected ht).trans (perform_total_eq_next_iff.2 ⟨hf, hfs⟩)

/-- The arms of the phases 0 to 6 are gated by busy (R73). -/
theorem exec_arm_eq_lineStep {p : Phase} (h : p.code.toNat ≤ 6) :
    ∃ armOf, ∀ s, exec p.arm s = performArm p (lineStep armOf) s := by
  cases p with
  | done | error => exact absurd h (by decide)
  | _ => exact ⟨_, fun _ => rfl⟩

/-- The busy gate of R73. -/
theorem exec_poll_of_busy {s : State} (hf : s.fault = FaultSet.empty) (ht : s.txn.toNat ≤ 6) (hb : s.busy = true) :
    exec .poll s = .next (wdtTick s) := by
  cases hp : Phase.ofCode s.txn with
  | none =>
    have hillegal : 9 ≤ s.txn.toNat := (Phase.ofCode_eq_none_iff _).1 hp
    omega
  | some p =>
    have hcode : s.txn = p.code := Phase.code_of_ofCode hp
    obtain ⟨armOf, harm⟩ := exec_arm_eq_lineStep (hcode ▸ ht)
    rw [execPoll_eq_performArm hcode (harm s), perform_lineStep_busy hf hb]

/-! ### The answers of each arm -/

theorem armPresence_of_seen {s : State} (hp : s.presSeen = true) :
    armPresence s = .ok (.progress, { s with presSeen := false, txBit := 0, txn := Phase.skipRom.code }) :=
  if_pos hp

theorem armPresence_of_exhausted {s : State} (hp : s.presSeen = false) (hr : s.retry = 0) :
    armPresence s = .ok (.progress, errEntry .presenceTimeout s) := by
  rw [armPresence, if_neg (by simp [hp]), if_pos hr]

theorem armPresence_of_window {s t : State} (hp : s.presSeen = false) (hr : s.retry ≠ 0)
    (hw : openWindow s = .ok t) : armPresence s = .ok (.progress, t) := by
  rw [armPresence, if_neg (by simp [hp]), if_neg hr, hw]

theorem armSkipRom_of_slot {s t : State} (hl : s.txBit.toNat < 8) (hw : writeSlot skipRomByte s = .ok t) :
    armSkipRom s = .ok (.progress, t) := by
  rw [armSkipRom, if_pos hl, hw]

theorem armSkipRom_of_sent {s : State} (hl : 8 ≤ s.txBit.toNat) :
    armSkipRom s = .ok (.progress, { s with txBit := 0, txn := Phase.convertTemperature.code }) :=
  if_neg (Nat.not_lt.2 hl)

theorem convertSkipped_iff {s : State} :
    convertSkipped s = true ↔ s.txBit = 0 ∧ s.settle = false ∧ s.convDone = true := by
  simp [convertSkipped, and_assoc]

/-- Only the first poll of ConvertTemperature tests the flag (R81). -/
theorem not_convertSkipped_of_sent {s : State} (hl : 8 ≤ s.txBit.toNat) : ¬convertSkipped s = true := by
  intro hk
  obtain ⟨hzero, -, -⟩ := convertSkipped_iff.1 hk
  simp [hzero] at hl

theorem armConvert_of_skipped {s : State} (hk : convertSkipped s = true) :
    armConvert s = .ok (.progress, { s with txn := Phase.readScratchpad.code }) :=
  if_pos hk

theorem armConvert_of_slot {s t : State} (hk : ¬convertSkipped s = true) (hl : s.txBit.toNat < 8)
    (hw : writeSlot convertTByte s = .ok t) : armConvert s = .ok (.progress, t) := by
  rw [armConvert, if_neg hk, if_pos hl, hw]

theorem armConvert_of_settle {s t : State} (hl : 8 ≤ s.txBit.toNat) (hs : s.settle = false)
    (hw : startSettle s = .ok t) : armConvert s = .ok (.progress, t) := by
  rw [armConvert, if_neg (not_convertSkipped_of_sent hl), if_neg (Nat.not_lt.2 hl), if_pos (by simp [hs]), hw]

theorem armConvert_of_settled {s : State} (hl : 8 ≤ s.txBit.toNat) (hs : s.settle = true) :
    armConvert s = .ok (.progress,
      { s with settle := false, txBit := 0, rdPend := false, txn := Phase.pollConversion.code }) := by
  rw [armConvert, if_neg (not_convertSkipped_of_sent hl), if_neg (Nat.not_lt.2 hl), if_neg (by simp [hs])]

theorem Ring.oldest_of_getElem? {r : Ring} {b : Bool} (h : r.buf[r.tail.toNat]? = some b) : r.oldest = b := by
  rw [Ring.oldest, List.getD_eq_getElem?_getD, h, Option.getD_some]

/-- CONSUME of an entry that lies inside the storage (R77, R94). -/
theorem consume_of_getElem? {s : State} {b : Bool} (hc : s.ring.count ≠ 0)
    (hv : s.ring.buf[s.ring.tail.toNat]? = some b) :
    consume s = (some b, { s with ring := s.ring.dropOldest s.cfg.cap, rdPend := false }) := by
  rw [consume_of_nonempty hc, Ring.oldest_of_getElem? hv]

theorem armPollConv_of_slot {s t : State} (hp : s.rdPend = false) (hi : issueRead s = .ok t) :
    armPollConv s = .ok (.progress, t) := by
  rw [armPollConv, if_pos (by simp [hp]), hi]

theorem armPollConv_of_one {s t : State} (hp : s.rdPend = true) (hc : consume s = (some true, t)) :
    armPollConv s =
      .ok (.progress, { resetCursors { t with convDone := true } with txn := Phase.reset.code }) := by
  rw [armPollConv, if_neg (by simp [hp]), hc]

theorem armPollConv_of_zero {s t : State} (hp : s.rdPend = true) (hc : consume s = (some false, t)) :
    armPollConv s = .ok (.progress, t) := by
  rw [armPollConv, if_neg (by simp [hp]), hc]

theorem armPollConv_of_underrun {s t : State} (hp : s.rdPend = true) (hc : consume s = (none, t)) :
    armPollConv s = .ok (.noop, t) := by
  rw [armPollConv, if_neg (by simp [hp]), hc]

theorem armReadSp_of_slot {s t : State} (hl : s.txBit.toNat < 8) (hw : writeSlot readScratchpadByte s = .ok t) :
    armReadSp s = .ok (.progress, t) := by
  rw [armReadSp, if_pos hl, hw]

theorem armReadSp_of_sent {s : State} (hl : 8 ≤ s.txBit.toNat) :
    armReadSp s = .ok (.progress,
      { s with txBit := 0, rxBit := 0, acc := 0, rdPend := false, txn := Phase.parseScratchpad.code }) :=
  if_neg (Nat.not_lt.2 hl)

theorem armParse_of_slot {s t : State} (hp : s.rdPend = false) (hr : s.rxBit.toNat < 16)
    (hi : issueRead s = .ok t) : armParse s = .ok (.progress, t) := by
  rw [armParse, if_pos (by simp [hp]), if_pos hr, hi]

theorem armParse_of_guard {s : State} (hp : s.rdPend = false) (hr : 16 ≤ s.rxBit.toNat) :
    armParse s = .ok (.progress, { s with txn := Phase.done.code }) := by
  rw [armParse, if_pos (by simp [hp]), if_neg (Nat.not_lt.2 hr)]

theorem armParse_of_sample {s t : State} {b : Bool} (hp : s.rdPend = true) (hc : consume s = (some b, t)) :
    armParse s = .ok (.progress, parseExit (accumulateBit b t)) := by
  rw [armParse, if_neg (by simp [hp]), hc]

theorem armParse_of_underrun {s t : State} (hp : s.rdPend = true) (hc : consume s = (none, t)) :
    armParse s = .ok (.noop, t) := by
  rw [armParse, if_neg (by simp [hp]), hc]

theorem accumulateBit_of_room {b : Bool} {s : State} (hr : s.rxBit.toNat < 16) :
    accumulateBit b s = { s with acc := accumulate s.acc b s.rxBit, rxBit := s.rxBit + 1 } :=
  if_pos hr

theorem accumulateBit_of_full {b : Bool} {s : State} (hr : 16 ≤ s.rxBit.toNat) : accumulateBit b s = s :=
  if_neg (Nat.not_lt.2 hr)

/-- The exit of ParseScratchpad, as the phase it leaves (R84). -/
theorem parseExit_of_parse {s : State} (ht : s.txn = 6) :
    parseExit s = { s with txn := if s.rxBit.toNat = 16 then 7 else 6 } := by
  by_cases h16 : s.rxBit.toNat = 16
  · simp [parseExit, regSize, h16, Phase.code]
  · simp [parseExit, regSize, h16, ← ht]

/-- The sample that fills the accumulator is the one at position 15. -/
theorem parseExit_accumulateBit_of_room {b : Bool} {s : State} (ht : s.txn = 6) (hr : s.rxBit.toNat < 16) :
    parseExit (accumulateBit b s) =
      { s with acc := accumulate s.acc b s.rxBit, rxBit := s.rxBit + 1
               txn := if s.rxBit.toNat = 15 then 7 else 6 } := by
  have hlast : (s.rxBit + 1).toNat = 16 ↔ s.rxBit.toNat = 15 := by rw [rxBit_succ hr]; omega
  rw [accumulateBit_of_room hr, parseExit_of_parse (by exact ht)]
  simp only [hlast]

theorem armDone_of_unreported {s : State} (hd : s.done = false) :
    armDone s = { s with
      temp := decodeTemp s.cfg.decodeSigned s.acc, done := true, convDone := false, acc := 0, rxBit := 0
      log := s.log ++ [.reportDone (decodeTemp s.cfg.decodeSigned s.acc)] } :=
  if_neg (by simp [hd])

theorem armDone_of_reported {s : State} (hd : s.done = true) : armDone s = s := if_pos hd

theorem armError_of_unreported {s : State} (he : s.err = false) :
    armError s = { s with err := true, log := s.log ++ [.reportErr s.errcode] } :=
  if_neg (by simp [he])

theorem armError_of_reported {s : State} (he : s.err = true) : armError s = s := if_pos he

/-! ### The terminal arms do not read busy (R73) -/

theorem armDone_setBusy (s : State) (b : Bool) :
    armDone { s with busy := b } = { armDone s with busy := b } := by
  rcases Bool.eq_false_or_eq_true s.done with hd | hd
  · rw [armDone_of_reported hd, armDone_of_reported (by exact hd)]
  · rw [armDone_of_unreported hd, armDone_of_unreported (by exact hd)]

theorem armError_setBusy (s : State) (b : Bool) :
    armError { s with busy := b } = { armError s with busy := b } := by
  rcases Bool.eq_false_or_eq_true s.err with he | he
  · rw [armError_of_reported he, armError_of_reported (by exact he)]
  · rw [armError_of_unreported he, armError_of_unreported (by exact he)]

/-- POLL in a phase whose arm is total and commutes with setting busy does so as well. -/
theorem exec_poll_setBusy {p : Phase} {f : State → State} {s t : State} {b : Bool}
    (hp : ∀ u, exec p.arm u = performArm p (fun u => .ok (f u)) u) (ht : s.txn = p.code)
    (hcomm : f { s with busy := b } = { f s with busy := b }) (h : exec .poll s = .next t) :
    exec .poll { s with busy := b } = .next { t with busy := b } := by
  rw [execPoll_eq_performArm ht (hp s)] at h
  obtain ⟨hf, rfl⟩ := perform_total_eq_next_iff.1 h
  have ht' : ({ s with busy := b } : State).txn = p.code := ht
  rw [execPoll_eq_performArm ht' (hp _)]
  exact perform_total_eq_next_iff.2 ⟨hf, hcomm⟩

end Sys2Proof.Machine

namespace Sys2Proof.Proofs

open Sys2Proof.Machine

/-- Settles O20: the phases 0 to 6 share one busy gate, and the arms of Done and Error commute with setting busy. -/
theorem busyPollOnlyTicksTheWatchdog : Obligations.BusyPollOnlyTicksTheWatchdog := by
  refine ⟨fun s hf ht hb => exec_poll_of_busy hf ht hb, fun s t b hterm h => ?_⟩
  rcases hterm with hdone | herror
  · exact exec_poll_setBusy (p := .done) (fun _ => rfl) hdone (armDone_setBusy s b) h
  · exact exec_poll_setBusy (p := .error) (fun _ => rfl) herror (armError_setBusy s b) h

/-- Settles O22: the arm answers with the pulse started, and its progress clears the watchdog. -/
theorem resetArmStartsTheResetPulse : Obligations.ResetArmStartsTheResetPulse :=
  fun _ hf ht hb hidle => performArm_lineStep_of_ok hf ht hb (armReset_ok hidle) rfl

/-- Settles O23, branch by branch of the Presence arm. -/
theorem presenceArmTestsThenDecrements : Obligations.PresenceArmTestsThenDecrements := by
  intro s hf ht hb
  have hstep {r t} (harm : armPresence s = .ok r) (hr : afterArm r = t) : exec .pollPresence s = .next t :=
    performArm_lineStep_of_ok hf ht hb harm hr
  refine ⟨?seen, ?exhausted, ?window⟩
  case seen => exact fun hseen => hstep (armPresence_of_seen hseen) rfl
  case exhausted => exact fun hunseen hzero => hstep (armPresence_of_exhausted hunseen hzero) rfl
  case window =>
    exact fun hunseen hleft hidle => hstep (armPresence_of_window hunseen hleft (openWindow_ok hidle)) rfl

/-- Settles O24, branch by branch of the SkipRom arm. -/
theorem skipRomArmSendsThenLeaves : Obligations.SkipRomArmSendsThenLeaves := by
  intro s hf ht hb
  have hstep {r t} (harm : armSkipRom s = .ok r) (hr : afterArm r = t) : exec .pollSkiprom s = .next t :=
    performArm_lineStep_of_ok hf ht hb harm hr
  refine ⟨?send, ?leave⟩
  case send => exact fun hleft hidle => hstep (armSkipRom_of_slot hleft (writeSlot_of_idle hidle)) rfl
  case leave => exact fun hsent => hstep (armSkipRom_of_sent hsent) rfl

/-- Settles O25, branch by branch of the ConvertTemperature arm. -/
theorem convertArmSkipsSendsSettlesOrLeaves : Obligations.ConvertArmSkipsSendsSettlesOrLeaves := by
  intro s hf ht hb
  have hstep {r t} (harm : armConvert s = .ok r) (hr : afterArm r = t) : exec .pollConvert s = .next t :=
    performArm_lineStep_of_ok hf ht hb harm hr
  refine ⟨?skip, ?send, ?settle, ?leave⟩
  case skip =>
    intro hzero hunsettled hconv
    exact hstep (armConvert_of_skipped (convertSkipped_iff.2 ⟨hzero, hunsettled, hconv⟩)) rfl
  case send =>
    intro hnoskip hleft hidle
    exact hstep (armConvert_of_slot (convertSkipped_iff.not.2 hnoskip) hleft (writeSlot_of_idle hidle)) rfl
  case settle =>
    exact fun hsent hunsettled hidle => hstep (armConvert_of_settle hsent hunsettled (startSettle_ok hidle)) rfl
  case leave => exact fun hsent hsettled => hstep (armConvert_of_settled hsent hsettled) rfl

/-- Settles O26, branch by branch of the PollConversion arm. -/
theorem pollConversionArmReadsUntilASampledOne : Obligations.PollConversionArmReadsUntilASampledOne := by
  intro s hf ht hb
  have hstep {r t} (harm : armPollConv s = .ok r) (hr : afterArm r = t) : exec .pollPollconv s = .next t :=
    performArm_lineStep_of_ok hf ht hb harm hr
  refine ⟨?slot, ?one, ?zero, ?underrun⟩
  case slot => exact fun hnone hidle => hstep (armPollConv_of_slot hnone (issueRead_of_idle hidle)) rfl
  case one => exact fun hpend hc hv => hstep (armPollConv_of_one hpend (consume_of_getElem? hc hv)) rfl
  case zero => exact fun hpend hc hv => hstep (armPollConv_of_zero hpend (consume_of_getElem? hc hv)) rfl
  case underrun => exact fun hpend hempty => hstep (armPollConv_of_underrun hpend (consume_of_empty hempty)) rfl

/-- Settles O27, branch by branch of the ReadScratchpad arm. -/
theorem readScratchpadArmSendsThenLeaves : Obligations.ReadScratchpadArmSendsThenLeaves := by
  intro s hf ht hb
  have hstep {r t} (harm : armReadSp s = .ok r) (hr : afterArm r = t) : exec .pollReadsp s = .next t :=
    performArm_lineStep_of_ok hf ht hb harm hr
  refine ⟨?send, ?leave⟩
  case send => exact fun hleft hidle => hstep (armReadSp_of_slot hleft (writeSlot_of_idle hidle)) rfl
  case leave => exact fun hsent => hstep (armReadSp_of_sent hsent) rfl

/-- Settles O28, branch by branch of the ParseScratchpad arm; a sample is accumulated, or lost at the register's end,
before the exit is tested. -/
theorem parseArmAccumulatesSixteenBits : Obligations.ParseArmAccumulatesSixteenBits := by
  intro s b hf ht hb
  have hstep {r t} (harm : armParse s = .ok r) (hr : afterArm r = t) : exec .pollParse s = .next t :=
    performArm_lineStep_of_ok hf ht hb harm hr
  refine ⟨?slot, ?guard, ?sample, ?overflow, ?underrun⟩
  case slot => exact fun hnone hroom hidle => hstep (armParse_of_slot hnone hroom (issueRead_of_idle hidle)) rfl
  case guard => exact fun hnone hfull => hstep (armParse_of_guard hnone hfull) rfl
  case sample =>
    intro hpend hc hv hroom
    refine hstep (armParse_of_sample hpend (consume_of_getElem? hc hv)) ?_
    rw [parseExit_accumulateBit_of_room (by exact ht) (by exact hroom)]
    rfl
  case overflow =>
    intro hpend hc hv hfull
    refine hstep (armParse_of_sample hpend (consume_of_getElem? hc hv)) ?_
    rw [accumulateBit_of_full (by exact hfull), parseExit_of_parse (by exact ht)]
    rfl
  case underrun => exact fun hpend hempty => hstep (armParse_of_underrun hpend (consume_of_empty hempty)) rfl

/-- Settles O29, by whether the report was made before. -/
theorem doneArmReportsOnce : Obligations.DoneArmReportsOnce := by
  intro s hf ht
  exact ⟨fun hfirst => performArm_of_total hf ht (armDone_of_unreported hfirst),
    fun hlater => performArm_of_total hf ht (armDone_of_reported hlater)⟩

/-- Settles O30, by whether the report was made before. -/
theorem errorArmReportsOnce : Obligations.ErrorArmReportsOnce := by
  intro s hf ht
  exact ⟨fun hfirst => performArm_of_total hf ht (armError_of_unreported hfirst),
    fun hlater => performArm_of_total hf ht (armError_of_reported hlater)⟩

end Sys2Proof.Proofs
end

section
/-! PROOFS. The timer stimuli (42_bit_timer.md): when they are enabled (R101), and the step of an enabled capture (R103)
and of an enabled terminal event (R104). -/

namespace Sys2Proof.Machine

/-! ### The stimuli by timer, and when they are enabled (R101) -/

theorem exec_tcap (id : TimerId) (level : Bool) (s : State) :
    exec (id.tcap level) s = performCapture id level s := by
  cases id <;> rfl

theorem exec_tend (id : TimerId) (s : State) : exec id.tend s = performTerminal id s := by
  cases id <;> rfl

theorem captureEnabled_iff {id : TimerId} {s : State} :
    captureEnabled id s = true ↔ (s.tmr.get id).armed = true ∧ (s.tmr.get id).capPend = true := by
  simp [captureEnabled]

theorem terminalEnabled_iff {id : TimerId} {s : State} :
    terminalEnabled id s = true ↔ (s.tmr.get id).armed = true ∧ (s.tmr.get id).capPend = false := by
  simp [terminalEnabled]

theorem exec_tcap_of_enabled {id : TimerId} {level : Bool} {s : State} (hf : s.fault = FaultSet.empty)
    (he : captureEnabled id s = true) : exec (id.tcap level) s = .next (capture id level s) := by
  rw [exec_tcap, performCapture, performWhen_of_ok he]
  exact perform_of_ok hf rfl

theorem exec_tend_of_enabled {id : TimerId} {s : State} (hf : s.fault = FaultSet.empty)
    (he : terminalEnabled id s = true) : exec id.tend s = .next (terminal id s) := by
  rw [exec_tend, performTerminal, performWhen_of_ok he]
  exact perform_of_ok hf rfl

/-! ### What a capture leaves -/

theorem receivedBit_eq_ite (drv : Drive) (level : Bool) :
    receivedBit drv level = if drv = .low then false else level := by
  cases drv <;> rfl

/-- A push, by whether the count has reached the capacity (R93). -/
theorem Ring.push_eq (cap : Nat) (b : Bool) (r : Ring) :
    r.push cap b = {
      buf := r.buf.set r.head.toNat b
      head := BitVec.ofNat 5 ((r.head.toNat + 1) % cap)
      tail := if r.count.toNat = cap then BitVec.ofNat 5 ((r.tail.toNat + 1) % cap) else r.tail
      count := if r.count.toNat = cap then r.count else r.count + 1 } := by
  simp only [Ring.push, Ring.isFull, advance, decide_eq_true_eq]

/-- A capture writes the timer's mark, the ring, the overflow flag and the log, and no other field (R103). -/
theorem capture_eq (id : TimerId) (level : Bool) (s : State) :
    capture id level s = { s with
      tmr := s.tmr.set { s.tmr.get id with capPend := false } id
      ring := s.ring.push s.cfg.cap (receivedBit s.drv level)
      ovr := s.ovr || s.ring.isFull s.cfg.cap
      log := s.log ++ [.sample (receivedBit s.drv level)] } :=
  rfl

end Sys2Proof.Machine

namespace Sys2Proof.Proofs

open Sys2Proof.Machine

/-- Settles O36: the three cases are one stimulus, that of timer `id`, which is enabled and takes the step of
`capture`. -/
theorem enabledCapturePushesTheSample : Obligations.EnabledCapturePushesTheSample := by
  intro s id level v m i hf harmed hpend hv hi
  have hstim : i = id.tcap level ∧ m = s.tmr.set { s.tmr.get id with capPend := false } id := by
    rcases hi with ⟨rfl, rfl, rfl⟩ | ⟨rfl, rfl, rfl⟩ | ⟨rfl, rfl, rfl⟩ <;> exact ⟨rfl, rfl⟩
  obtain ⟨rfl, rfl⟩ := hstim
  rw [exec_tcap_of_enabled hf (captureEnabled_iff.2 ⟨harmed, hpend⟩), capture_eq, receivedBit_eq_ite, ← hv,
    Ring.push_eq, Ring.isFull]

/-- Settles O37, timer by timer: each stimulus is enabled and takes the step of `terminal`. -/
theorem enabledTerminalClearsBusy : Obligations.EnabledTerminalClearsBusy := by
  intro s hf
  have hstep (id : TimerId) (harmed : (s.tmr.get id).armed = true) (hcap : (s.tmr.get id).capPend = false) :
      exec id.tend s = .next (terminal id s) :=
    exec_tend_of_enabled hf (terminalEnabled_iff.2 ⟨harmed, hcap⟩)
  exact ⟨hstep .rst, hstep .wr, hstep .rd⟩

end Sys2Proof.Proofs
end

section
/-! PROOFS. The edge stimuli (43_line_driver.md): what an edge answers in every state with no fault (R110 to R112). -/

namespace Sys2Proof.Machine

/-! ### What a falling edge leaves (R111) -/

theorem edgeFall_of_window {s : State} (h : s.txn = Phase.presence.code ∧ s.pwin = true) :
    edgeFall s = { s with presSeen := true } :=
  if_pos h

theorem edgeFall_of_not_window {s : State} (h : ¬(s.txn = Phase.presence.code ∧ s.pwin = true)) : edgeFall s = s :=
  if_neg h

/-! ### The edges as steps (R110) -/

/-- A falling edge is enabled in every state with no fault. -/
theorem exec_edgeF_of_unfaulted {s : State} (hf : s.fault = FaultSet.empty) : exec .edgeF s = .next (edgeFall s) :=
  perform_total_eq_next_iff.2 ⟨hf, rfl⟩

/-- A rising edge is enabled in every state with no fault, and its step is the identity. -/
theorem exec_edgeR_of_unfaulted {s : State} (hf : s.fault = FaultSet.empty) : exec .edgeR s = .next s :=
  perform_of_ok hf rfl

end Sys2Proof.Machine

namespace Sys2Proof.Proofs

open Sys2Proof.Machine

/-- Settles O34, by whether the presence window is open in the Presence phase. -/
theorem fallingEdgeIsSeenOnlyInsideTheWindow : Obligations.FallingEdgeIsSeenOnlyInsideTheWindow := by
  intro s hf
  rw [exec_edgeF_of_unfaulted hf]
  refine ⟨?inside, ?outside⟩
  case inside => exact fun hwindow => congrArg _ (edgeFall_of_window hwindow)
  case outside => exact fun hclosed => congrArg _ (edgeFall_of_not_window hclosed)

/-- Settles O35: the step of a rising edge is the identity. -/
theorem risingEdgeHasNoEffect : Obligations.RisingEdgeHasNoEffect :=
  fun _ hf => exec_edgeR_of_unfaulted hf

end Sys2Proof.Proofs
end

section
/-! PROOFS. The decoder (30_encoding.md): what the argument of each stimulus class spells (R62), that decoding and
encoding are inverse, and which words spell a stimulus (R64). -/

namespace Sys2Proof

/-! ### The argument of each class (R62)

An argument that decodes is the argument of the encoded instruction: `CLASS ++ arg` is its word. -/

theorem encode_of_decodeHost {arg : BitVec 4} {i : Instr} (h : decodeHost arg = .ok i) :
    encode i = .stim (0#4 ++ arg) := by
  unfold decodeHost at h
  split at h
  next harg =>
    cases h
    rw [show arg = 1 from BitVec.eq_of_toNat_eq harg]
    rfl
  next harg =>
    cases h
    rw [show arg = 2 from BitVec.eq_of_toNat_eq harg]
    rfl
  next => cases h

theorem encode_of_decodeEdge {arg : BitVec 4} {i : Instr} (h : decodeEdge arg = .ok i) :
    encode i = .stim (1#4 ++ arg) := by
  have hkind : ∀ arg : BitVec 4, ¬(arg[3] || arg[2] || arg[1]) = true →
      arg = if arg[0] then 1 else 0 := by decide
  unfold decodeEdge at h
  split at h
  next => cases h
  next hzero =>
    cases h
    rw [hkind arg hzero]
    cases arg[0] <;> rfl

/-- TID is bits 1:0 of the argument (R62). -/
theorem TimerId.code_of_ofCode {c : BitVec 2} {t : TimerId} (h : TimerId.ofCode c = some t) : c = t.code := by
  revert t c
  decide

theorem encode_of_decodeCapture {arg : BitVec 4} {i : Instr} (h : decodeCapture arg = .ok i) :
    encode i = .stim (2#4 ++ arg) := by
  have hfields : ∀ arg : BitVec 4, ¬arg[2] = true →
      arg = BitVec.ofBool arg[3] ++ 0#1 ++ arg.extractLsb' 0 2 := by decide
  unfold decodeCapture at h
  split at h
  next => cases h
  next hzero =>
    split at h
    next t ht =>
      cases h
      rw [hfields arg hzero, TimerId.code_of_ofCode ht]
      cases t <;> cases arg[3] <;> rfl
    next => cases h

theorem encode_of_decodeTerminal {arg : BitVec 4} {i : Instr} (h : decodeTerminal arg = .ok i) :
    encode i = .stim (3#4 ++ arg) := by
  have hfields : ∀ arg : BitVec 4, ¬(arg[3] || arg[2]) = true → arg = 0#2 ++ arg.extractLsb' 0 2 := by decide
  unfold decodeTerminal at h
  split at h
  next => cases h
  next hzero =>
    split at h
    next t ht =>
      cases h
      rw [hfields arg hzero, TimerId.code_of_ofCode ht]
      cases t <;> rfl
    next => cases h

/-! ### Decoding, then encoding -/

theorem stimClass_append_stimArg (w : Byte) : stimClass w ++ stimArg w = w :=
  (BitVec.extractLsb'_append_extractLsb'_eq_extractLsb' (Nat.zero_add 4)).trans BitVec.extractLsb'_eq_self

theorem encode_of_decodeStim {w : Byte} {i : Instr} (h : decodeStim w = .ok i) : encode i = .stim w := by
  have hword {c : BitVec 4} (hc : (stimClass w).toNat = c.toNat) : c ++ stimArg w = w := by
    rw [← BitVec.eq_of_toNat_eq hc, stimClass_append_stimArg]
  unfold decodeStim at h
  split at h
  next hc => rw [encode_of_decodeHost h, hword (c := 0#4) hc]
  next hc => rw [encode_of_decodeEdge h, hword (c := 1#4) hc]
  next hc => rw [encode_of_decodeCapture h, hword (c := 2#4) hc]
  next hc => rw [encode_of_decodeTerminal h, hword (c := 3#4) hc]
  next => cases h

theorem encode_arm (p : Phase) : encode p.arm = .arm pollWord p.code := by cases p <;> rfl

theorem encode_of_decodeArm {w : Byte} {state : BitVec 4} {i : Instr} (h : decodeArm w state = .ok i) :
    encode i = .arm w state := by
  unfold decodeArm at h
  split at h
  next hw =>
    split at h
    next p hp =>
      cases h
      rw [encode_arm, hw, Machine.Phase.code_of_ofCode hp]
    next => cases h
  next => cases h

theorem decodeCmd_eq_ok_iff {c : Byte} {i : Instr} :
    decodeCmd c = .ok i ↔ (c = skipRomByte ∧ i = .skipRom) ∨ (c = convertTByte ∧ i = .convertT) ∨
      (c = readScratchpadByte ∧ i = .readScratchpad) := by
  constructor
  · intro h
    unfold decodeCmd at h
    split_ifs at h with hskip hconvert hread <;> cases h <;> simp [*]
  · rintro (⟨rfl, rfl⟩ | ⟨rfl, rfl⟩ | ⟨rfl, rfl⟩) <;> rfl

theorem encode_of_decodeCmd {c : Byte} {i : Instr} (h : decodeCmd c = .ok i) : encode i = .cmd c := by
  rcases decodeCmd_eq_ok_iff.1 h with ⟨rfl, rfl⟩ | ⟨rfl, rfl⟩ | ⟨rfl, rfl⟩ <;> rfl

theorem encode_of_decode {c : Code} {i : Instr} (h : decode c = .ok i) : encode i = c := by
  cases c with
  | stim w => exact encode_of_decodeStim h
  | arm w state => exact encode_of_decodeArm h
  | cmd c => exact encode_of_decodeCmd h
  | read off width => cases h; rfl
  | write off width value => cases h; rfl

/-- Only a capture's word depends on an operand: LEVEL. -/
theorem decode_encode (i : Instr) : decode (encode i) = .ok i := by
  cases i with
  | tcapRst level => exact Laws.RoundTrip.tcapRst level
  | tcapWr level => exact Laws.RoundTrip.tcapWr level
  | tcapRd level => exact Laws.RoundTrip.tcapRd level
  | _ => rfl

/-! ### The words of the opcode map (R64) -/

/-- The thirteen words, in the order of the rows of R64. -/
def stimWords : List Byte :=
  [0x01#8, 0x02#8, 0x10#8, 0x11#8, 0x20#8, 0x28#8, 0x21#8, 0x29#8, 0x22#8, 0x2A#8, 0x30#8, 0x31#8, 0x32#8]

theorem mem_stimWords_of_encode {w : Byte} {i : Instr} (h : encode i = .stim w) : w ∈ stimWords := by
  cases i with
  | tcapRst level | tcapWr level | tcapRd level => cases h; cases level <;> decide
  | _ => cases h <;> decide

theorem exists_decode_stim_of_mem {w : Byte} (h : w ∈ stimWords) : ∃ i, decode (.stim w) = .ok i := by
  fin_cases h <;> exact ⟨_, rfl⟩

theorem exists_decode_stim_iff {w : Byte} : (∃ i, decode (.stim w) = .ok i) ↔ w ∈ stimWords :=
  ⟨fun ⟨_, h⟩ => mem_stimWords_of_encode (encode_of_decode h), exists_decode_stim_of_mem⟩

theorem stimRowsMatched_eq : ∀ w : Byte, stimRowsMatched w = if w ∈ stimWords then 1 else 0 := by
  decide

end Sys2Proof

namespace Sys2Proof.Machine

/-! ### The step an input takes -/

theorem step_of_word {s : State} {w : Byte} {rest : List Input} (ht : s.trace = .word w :: rest) :
    step s = runCode (.stim w) w rest s := by
  rw [step, ht]

theorem step_of_hostRead {s : State} {addr : BitVec 32} {width : Nat} {rest : List Input}
    (ht : s.trace = .hostRead addr width :: rest) :
    step s = exec (.memRead (viewOffset addr s) width) (s.advance rest) := by
  rw [step, ht]
  rfl

theorem step_of_hostWrite {s : State} {addr : BitVec 32} {width : Nat} {value : Word} {rest : List Input}
    (ht : s.trace = .hostWrite addr width value :: rest) :
    step s = exec (.memWrite (viewOffset addr s) width value) (s.advance rest) := by
  rw [step, ht]
  rfl

theorem step_of_powerOn {s : State} {u : Unspecified} {rest : List Input} (ht : s.trace = .powerOn u :: rest) :
    step s = .next ((s.advance rest).powerCycle u) := by
  rw [step, ht]

theorem step_of_nil {s : State} (ht : s.trace = []) : step s = .refused .noStimulus := by
  rw [step, ht]

theorem runCode_of_ok {c : Code} {w : Byte} {rest : List Input} {s : State} {i : Instr} (h : decode c = .ok i) :
    runCode c w rest s = exec i (s.advance rest) := by
  rw [runCode, h]

theorem runCode_of_error {c : Code} {w : Byte} {rest : List Input} {s : State} {why : Reserved}
    (h : decode c = .error why) : runCode c w rest s = .refused (.reservedWord w why s.pos) := by
  rw [runCode, h]

/-! ### Placing a word (log 13) -/

theorem decodeTableWord_byte_eq_some {w : Nat} {i : Instr} (h : decodeTableWord 8 w = some i) :
    decode (.stim (BitVec.ofNat 8 w)) = .ok i ∨ decode (.cmd (BitVec.ofNat 8 w)) = .ok i := by
  simp only [decodeTableWord, if_true] at h
  split at h
  next hstim => cases h; exact .inl hstim
  next =>
    split at h
    next hcmd => cases h; exact .inr hcmd
    next => cases h

/-- No word is both a stimulus and a command byte. -/
theorem commandPhase_of_stim : ∀ w ∈ stimWords, commandPhase w = none := by
  decide

theorem step_deliver_word {s : State} {w : Byte} {i : Instr} (h : decode (.stim w) = .ok i) :
    step (s.deliver (.word w)) = exec i { s with pos := s.pos + 1 } :=
  (step_of_word rfl).trans (runCode_of_ok h)

theorem step_withFetchWord_of_stim {s : State} {w : Nat} {i : Instr}
    (h : decode (.stim (BitVec.ofNat 8 w)) = .ok i) :
    step (s.withFetchWord 8 w) = exec i { s with pos := s.pos + 1 } := by
  have hplain := commandPhase_of_stim _ (exists_decode_stim_iff.1 ⟨i, h⟩)
  rw [State.withFetchWord, if_pos rfl, State.placeByte, hplain]
  exact step_deliver_word h

theorem step_withFetchWord_of_command {s : State} {w : Nat} {p : Phase}
    (h : commandPhase (BitVec.ofNat 8 w) = some p) :
    step (s.withFetchWord 8 w) = exec .poll { s.selectCommand p with pos := s.pos + 1 } := by
  rw [State.withFetchWord, if_pos rfl, State.placeByte, h]
  exact step_deliver_word rfl

theorem transmits_selectCommand (s : State) (p : Phase) (n : Nat) :
    transmits p { s.selectCommand p with pos := n } = true :=
  transmits_iff.2 ⟨rfl, rfl, by simp [State.selectCommand], by simp [convertSkipped, State.selectCommand]⟩

end Sys2Proof.Machine

namespace Sys2Proof.Proofs

open Sys2Proof.Machine

/-- Settles O5: the code that decodes to an instruction is its encoding, and an encoding decodes to its instruction. -/
theorem decodeAndEncodeAreInverse : Obligations.DecodeAndEncodeAreInverse := by
  intro c i
  exact ⟨encode_of_decode, fun h => h ▸ decode_encode i⟩

/-- Settles O1, by the kind of the input. -/
theorem stepRunsTheDecodedInput : Obligations.StepRunsTheDecodedInput :=
  ⟨fun _ _ _ _ ht hi => (step_of_word ht).trans (runCode_of_ok hi), fun _ _ _ _ ht => step_of_hostRead ht,
    fun _ _ _ _ _ ht => step_of_hostWrite ht⟩

/-- Settles O2. -/
theorem reservedWordIsRefusedByNameAndPosition : Obligations.ReservedWordIsRefusedByNameAndPosition :=
  ⟨fun _ _ _ _ ht hw => (step_of_word ht).trans (runCode_of_error hw), fun _ ht => step_of_nil ht⟩

/-- Settles O3: a word that decodes is an encoding, and the encodings are the thirteen words; they are the words that
match a row. -/
theorem exactlyThirteenWordsSpellAStimulus : Obligations.ExactlyThirteenWordsSpellAStimulus := by
  refine ⟨fun w => exists_decode_stim_iff, fun w => ?_⟩
  rw [exists_decode_stim_iff, stimRowsMatched_eq]
  by_cases hw : w ∈ stimWords <;> simp [hw]

/-- Settles O4: each code is evaluated. -/
theorem spelledWordsDecodeAsTheTableSays : Obligations.SpelledWordsDecodeAsTheTableSays := by
  unfold Obligations.SpelledWordsDecodeAsTheTableSays
  decide

/-- Settles O33: each slot is evaluated. -/
theorem commandBytesGoOutLeastSignificantBitFirst : Obligations.CommandBytesGoOutLeastSignificantBitFirst := by
  unfold Obligations.CommandBytesGoOutLeastSignificantBitFirst
  decide

/-- Settles O7: each line is evaluated. -/
theorem assemblerSpellsTheStimuli : Obligations.AssemblerSpellsTheStimuli := by
  unfold Obligations.AssemblerSpellsTheStimuli
  decide

/-- Settles O6: a stimulus is delivered as it stands; a command byte selects its phase, where POLL is its step. -/
theorem placedWordIsTheNextInstruction : Obligations.PlacedWordIsTheNextInstruction := by
  intro s w i h
  rcases decodeTableWord_byte_eq_some h with hstim | hcmd
  · exact .inl (step_withFetchWord_of_stim hstim)
  · right
    rcases decodeCmd_eq_ok_iff.1 hcmd with ⟨hw, rfl⟩ | ⟨hw, rfl⟩ | ⟨hw, rfl⟩
    · exact ⟨.skipRom, by simp, (step_withFetchWord_of_command (by rw [hw]; rfl)).trans
        (skipRom_eq_poll (transmits_selectCommand s _ _)).symm⟩
    · exact ⟨.convertTemperature, by simp, (step_withFetchWord_of_command (by rw [hw]; rfl)).trans
        (convertT_eq_poll (transmits_selectCommand s _ _)).symm⟩
    · exact ⟨.readScratchpad, by simp, (step_withFetchWord_of_command (by rw [hw]; rfl)).trans
        (readScratchpad_eq_poll (transmits_selectCommand s _ _)).symm⟩

end Sys2Proof.Proofs
end

section
/-! PROOFS. The ring as a queue (41_ring_buffer.md): the contents after each operation (R93 to R96), and what a run of
pushes and a run of pops do. -/

namespace Sys2Proof.Machine

/-! ### The contents after each operation -/

@[simp] theorem Ring.contents_length (cap : Nat) (r : Ring) : (r.contents cap).length = r.count.toNat := by
  simp [Ring.contents]

theorem Ring.contents_eq_nil_iff {cap : Nat} {r : Ring} : r.contents cap = [] ↔ r.count = 0 := by
  rw [← List.length_eq_zero_iff, Ring.contents_length, ← BitVec.toNat_inj]
  rfl

theorem Ring.dropOldest_count (cap : Nat) {r : Ring} (hne : r.count ≠ 0) :
    (r.dropOldest cap).count.toNat + 1 = r.count.toNat := by
  have hpos : r.count.toNat ≠ 0 := fun h0 => hne (BitVec.eq_of_toNat_eq h0)
  have hle : (1 : BitVec 6) ≤ r.count := Nat.one_le_iff_ne_zero.2 hpos
  exact (congrArg (· + 1) (BitVec.toNat_sub_of_le hle)).trans (Nat.succ_pred hpos)

/-- The oldest entry is the one at the tail, and the others are the contents once it is dropped. -/
theorem Ring.contents_eq_cons {cap : Nat} {r : Ring} (hw : r.Wf cap) (h : cap ≤ 32) (hne : r.count ≠ 0) :
    r.contents cap = r.oldest :: (r.dropOldest cap).contents cap := by
  have hpos : 0 < cap := by have := hw.tail; omega
  have hcount : r.count.toNat = (r.count - 1).toNat + 1 := (Ring.dropOldest_count cap hne).symm
  simp only [Ring.contents, Ring.oldest, Ring.dropOldest, hcount, advance_toNat h hpos, List.range_succ_eq_map,
    List.map_cons, List.map_map, Nat.add_zero, Nat.mod_eq_of_lt hw.tail, Nat.mod_add_mod]
  congr 2
  funext i
  simp [Nat.add_assoc, Nat.add_comm 1 i]

/-- The entry past the newest is at the head, where no unconsumed entry is. -/
theorem Ring.contents_push_of_room {cap : Nat} {r : Ring} (hw : r.Wf cap) (h : cap ≤ 32)
    (hroom : r.count.toNat < cap) (b : Bool) : (r.push cap b).contents cap = r.contents cap ++ [b] := by
  have hcount : (r.count + 1).toNat = r.count.toNat + 1 := by
    rw [BitVec.toNat_add]
    exact Nat.mod_eq_of_lt (by simp; omega)
  have hnew : (r.buf.set r.head.toNat b).getD ((r.tail.toNat + r.count.toNat) % cap) false = b := by
    have hin : r.head.toNat < r.buf.length := hw.length ▸ hw.head
    simp [← hw.cursors, hin]
  have hold : ∀ i < r.count.toNat, (r.buf.set r.head.toNat b).getD ((r.tail.toNat + i) % cap) false =
      r.buf.getD ((r.tail.toNat + i) % cap) false := by
    intro i hi
    have hne : r.head.toNat ≠ (r.tail.toNat + i) % cap := by
      rw [hw.cursors]
      intro heq
      have hmod : r.count.toNat % cap = i % cap := Nat.ModEq.add_left_cancel' r.tail.toNat heq
      rw [Nat.mod_eq_of_lt hroom, Nat.mod_eq_of_lt (hi.trans hroom)] at hmod
      omega
    simp [List.getElem?_set_ne hne]
  simp only [Ring.contents, Ring.push, Ring.isFull, hroom.ne, decide_false, Bool.false_eq_true, if_false, hcount,
    List.range_succ, List.map_append, List.map_cons, List.map_nil, hnew]
  congr 1
  exact List.map_congr_left fun i hi => hold i (List.mem_range.1 hi)

/-- A push into a full ring is one into the ring without its oldest entry (R93). -/
theorem Ring.push_of_full {cap : Nat} {r : Ring} (hpos : 0 < cap) (hfull : r.count.toNat = cap)
    (b : Bool) : r.push cap b = (r.dropOldest cap).push cap b := by
  have hne : r.count ≠ 0 := fun h0 => hpos.ne (by rw [← hfull, h0]; rfl)
  have hroom : (r.dropOldest cap).count.toNat ≠ cap := by have := Ring.dropOldest_count cap hne; omega
  have hback : (r.dropOldest cap).count + 1 = r.count := BitVec.sub_add_cancel _ _
  simp only [Ring.push, Ring.isFull, hfull, hroom, hback, decide_true, decide_false, if_true, Bool.false_eq_true,
    if_false]
  rfl

/-- A push keeps the newest `cap` entries. -/
theorem Ring.contents_push {cap : Nat} {r : Ring} (hw : r.Wf cap) (h : cap ≤ 32) (b : Bool) :
    (r.push cap b).contents cap =
      (if r.count.toNat = cap then (r.contents cap).tail else r.contents cap) ++ [b] := by
  by_cases hfull : r.count.toNat = cap
  · have hpos : 0 < cap := by have := hw.tail; omega
    have hne : r.count ≠ 0 := fun h0 => hpos.ne (by rw [← hfull, h0]; rfl)
    have hroom : (r.dropOldest cap).count.toNat < cap := by have := Ring.dropOldest_count cap hne; omega
    rw [if_pos hfull, Ring.push_of_full hpos hfull,
      Ring.contents_push_of_room (hw.dropOldest hpos h hne) h hroom, Ring.contents_eq_cons hw h hne,
      List.tail_cons]
  · rw [if_neg hfull, Ring.contents_push_of_room hw h (by have := hw.count; omega)]

/-! ### The operations on the state -/

theorem pop_cfg (s : State) : (pop s).2.cfg = s.cfg := by
  unfold pop
  split <;> rfl

theorem contents_pop_of_nonempty {s : State} (hw : s.ring.Wf s.cfg.cap) (hne : s.ring.count ≠ 0) :
    s.ring.contents s.cfg.cap = s.ring.oldest :: (pop s).2.ring.contents s.cfg.cap := by
  rw [pop_of_nonempty hne]
  exact Ring.contents_eq_cons hw (Config.cap_bounds s.cfg).2 hne

theorem pop_wf {s : State} (hw : s.ring.Wf s.cfg.cap) : (pop s).2.ring.Wf s.cfg.cap := by
  obtain ⟨hlow, hcap⟩ := Config.cap_bounds s.cfg
  by_cases hne : s.ring.count = 0
  · rw [pop_of_empty hne]
    exact hw
  · rw [pop_of_nonempty hne]
    exact hw.dropOldest (by omega) hcap hne

theorem pop_fst {s : State} (hw : s.ring.Wf s.cfg.cap) : (pop s).1 = (s.ring.contents s.cfg.cap).head? := by
  by_cases hne : s.ring.count = 0
  · rw [pop_of_empty hne, Ring.contents_eq_nil_iff.2 hne]
    rfl
  · rw [contents_pop_of_nonempty hw hne, pop_of_nonempty hne]
    rfl

theorem contents_pop {s : State} (hw : s.ring.Wf s.cfg.cap) :
    (pop s).2.ring.contents s.cfg.cap = (s.ring.contents s.cfg.cap).tail := by
  by_cases hne : s.ring.count = 0
  · have hnil : s.ring.contents s.cfg.cap = [] := Ring.contents_eq_nil_iff.2 hne
    rw [pop_of_empty hne, hnil]
    rfl
  · rw [contents_pop_of_nonempty hw hne, List.tail_cons]

theorem push_wf {s : State} (hw : s.ring.Wf s.cfg.cap) (b : Bool) : (push b s).ring.Wf s.cfg.cap :=
  have ⟨hlow, hcap⟩ := Config.cap_bounds s.cfg
  hw.push (by omega) hcap b

/-! ### Runs of pushes and pops -/

/-- The newest `n` entries of a list. -/
def newest (n : Nat) (l : List Bool) : List Bool := l.drop (l.length - n)

theorem newest_of_length_le {n : Nat} {l : List Bool} (h : l.length ≤ n) : newest n l = l := by
  rw [newest, Nat.sub_eq_zero_of_le h, List.drop_zero]

theorem newest_newest_append (n : Nat) (l l' : List Bool) : newest n (newest n l ++ l') = newest n (l ++ l') := by
  rcases Nat.le_total l.length n with hle | hlt
  · rw [newest_of_length_le hle]
  · simp only [newest, List.drop_append, List.drop_drop, List.length_append, List.length_drop]
    congr 2 <;> omega

theorem contents_push_eq_newest {s : State} (hw : s.ring.Wf s.cfg.cap) (b : Bool) :
    (push b s).ring.contents s.cfg.cap = newest s.cfg.cap (s.ring.contents s.cfg.cap ++ [b]) := by
  obtain ⟨hlow, hcap⟩ := Config.cap_bounds s.cfg
  have hlen : (s.ring.contents s.cfg.cap).length = s.ring.count.toNat := Ring.contents_length _ _
  rw [push_ring, Ring.contents_push hw hcap]
  split
  next hfull =>
    rw [newest, List.length_append, hlen, hfull, List.length_singleton, Nat.add_sub_cancel_left,
      List.drop_append_of_le_length (by omega), List.drop_one]
  next hroom =>
    have hcount := hw.count
    rw [newest_of_length_le (by rw [List.length_append, hlen, List.length_singleton]; omega)]

theorem contents_pushAll (bits : List Bool) {s : State} (hw : s.ring.Wf s.cfg.cap) :
    (pushAll bits s).cfg = s.cfg ∧ (pushAll bits s).ring.Wf s.cfg.cap ∧
      (pushAll bits s).ring.contents s.cfg.cap = newest s.cfg.cap (s.ring.contents s.cfg.cap ++ bits) := by
  induction bits generalizing s with
  | nil => exact ⟨rfl, hw, by rw [List.append_nil, newest_of_length_le (by simpa using hw.count)]; rfl⟩
  | cons b bits ih =>
    obtain ⟨hcfg, hwf, hcontents⟩ := ih (s := push b s) (push_wf hw b)
    refine ⟨hcfg, hwf, hcontents.trans ?_⟩
    rw [push_cfg, contents_push_eq_newest hw, newest_newest_append, List.append_assoc]
    rfl

/-- As many pops as there are entries return them all, and leave none. -/
theorem popTimes_all {n : Nat} {s : State} (hw : s.ring.Wf s.cfg.cap) (hn : s.ring.count.toNat = n) :
    (popTimes n s).1 = (s.ring.contents s.cfg.cap).map some ∧ (popTimes n s).2.ring.count = 0 := by
  induction n generalizing s with
  | zero =>
    have hempty : s.ring.count = 0 := BitVec.eq_of_toNat_eq hn
    exact ⟨by rw [Ring.contents_eq_nil_iff.2 hempty]; rfl, hempty⟩
  | succ n ih =>
    have hne : s.ring.count ≠ 0 := fun h0 => by simp [h0] at hn
    have hcons := contents_pop_of_nonempty hw hne
    have hleft : (pop s).2.ring.count.toNat = n := by
      rw [pop_of_nonempty hne]
      exact Nat.succ.inj ((Ring.dropOldest_count _ hne).trans hn)
    obtain ⟨hpops, hempty⟩ := ih (s := (pop s).2) (by rw [pop_cfg]; exact pop_wf hw) hleft
    refine ⟨?_, hempty⟩
    rw [hcons, List.map_cons, popTimes, hpops, pop_cfg, pop_of_nonempty hne]

end Sys2Proof.Machine

namespace Sys2Proof.Proofs

open Sys2Proof.Machine

/-- Settles O47, operation by operation. -/
theorem ringIsABoundedQueue : Obligations.RingIsABoundedQueue := by
  intro s b hw
  obtain ⟨hlow, hcap⟩ := Config.cap_bounds s.cfg
  refine ⟨?push, ?pop, ?flush, ?reset⟩
  case push => exact ⟨push_wf hw b, Ring.contents_push hw hcap b⟩
  case pop => exact ⟨pop_fst hw, pop_wf hw, contents_pop hw⟩
  case flush => exact ⟨hw.flush, Ring.contents_eq_nil_iff.2 rfl⟩
  case reset => exact ⟨hw.resetCursors (by omega), Ring.contents_eq_nil_iff.2 rfl⟩

/-- Settles O48: the pushes leave the newest `CAP` bits, which are all but the first, and the pops return them all. -/
theorem ringKeepsTheLastCapacityBits : Obligations.RingKeepsTheLastCapacityBits := by
  intro s bits hw hempty hlen
  obtain ⟨hcfg, hwf, hcontents⟩ := contents_pushAll bits hw
  have htail : (pushAll bits s).ring.contents s.cfg.cap = bits.tail := by
    rw [hcontents, Ring.contents_eq_nil_iff.2 hempty, List.nil_append, newest, hlen, Nat.add_sub_cancel_left,
      List.drop_one]
  have hcount : (pushAll bits s).ring.count.toNat = s.cfg.cap := by
    rw [← Ring.contents_length s.cfg.cap, htail, List.length_tail, hlen, Nat.add_sub_cancel]
  obtain ⟨hpops, hnone⟩ := popTimes_all (hcfg ▸ hwf) hcount
  refine ⟨?_, by rw [pop_of_empty hnone]⟩
  rw [hpops, hcfg, htail]

end Sys2Proof.Proofs
end

section
/-! PROOFS. What a step can write: the watchdog tick (R133), a POLL (R72 to R86), and every instruction by the kind of
effect it has. -/

namespace Sys2Proof.Machine

/-! ### The watchdog tick -/

/-- The fields a tick can write are `S.wdt` and those of the Error entry. -/
theorem wdtTick_frame (s : State) :
    wdtTick s = { s with wdt := (wdtTick s).wdt, drv := (wdtTick s).drv, txn := (wdtTick s).txn
                         errcode := (wdtTick s).errcode } := by
  rcases wdtTick_cases s with ⟨-, h⟩ | ⟨-, -, h⟩ | ⟨-, -, h⟩ <;> rw [h]

@[simp] theorem wdtTick_cfg (s : State) : (wdtTick s).cfg = s.cfg := by rw [wdtTick_frame]
@[simp] theorem wdtTick_busy (s : State) : (wdtTick s).busy = s.busy := by rw [wdtTick_frame]
@[simp] theorem wdtTick_presSeen (s : State) : (wdtTick s).presSeen = s.presSeen := by rw [wdtTick_frame]
@[simp] theorem wdtTick_done (s : State) : (wdtTick s).done = s.done := by rw [wdtTick_frame]
@[simp] theorem wdtTick_err (s : State) : (wdtTick s).err = s.err := by rw [wdtTick_frame]
@[simp] theorem wdtTick_ovr (s : State) : (wdtTick s).ovr = s.ovr := by rw [wdtTick_frame]
@[simp] theorem wdtTick_temp (s : State) : (wdtTick s).temp = s.temp := by rw [wdtTick_frame]
@[simp] theorem wdtTick_ring (s : State) : (wdtTick s).ring = s.ring := by rw [wdtTick_frame]
@[simp] theorem wdtTick_tmr (s : State) : (wdtTick s).tmr = s.tmr := by rw [wdtTick_frame]
@[simp] theorem wdtTick_log (s : State) : (wdtTick s).log = s.log := by rw [wdtTick_frame]
@[simp] theorem wdtTick_trace (s : State) : (wdtTick s).trace = s.trace := by rw [wdtTick_frame]
@[simp] theorem wdtTick_pos (s : State) : (wdtTick s).pos = s.pos := by rw [wdtTick_frame]
@[simp] theorem wdtTick_busData (s : State) : (wdtTick s).busData = s.busData := by rw [wdtTick_frame]

/-- A tick keeps the phase or enters Error with the cause STALL, which a disabled watchdog never does. -/
theorem wdtTick_txn_cases (s : State) :
    (wdtTick s).txn = s.txn ∨
      ((wdtTick s).txn = 8 ∧ s.cfg.wdtLimit ≠ 0 ∧ (wdtTick s).errcode = .stall) := by
  rcases wdtTick_cases s with ⟨-, h⟩ | ⟨hlimit, -, h⟩ | ⟨-, -, h⟩ <;> rw [h]
  · exact .inl rfl
  · exact .inr ⟨rfl, hlimit, rfl⟩
  · exact .inl rfl

/-! ### POLL, aspect by aspect -/

theorem PollStep.inputs_kept {s t : State} (h : PollStep s t) :
    t.cfg = s.cfg ∧ t.trace = s.trace ∧ t.pos = s.pos ∧ t.busData = s.busData := by
  cases h <;> simp

/-- A POLL logs at most one record. -/
theorem PollStep.log_cases {s t : State} (h : PollStep s t) : t.log = s.log ∨ ∃ r, t.log = s.log ++ [r] := by
  cases h <;> simp

/-- A POLL leaves busy and the timers as they are, or sets busy and arms one idle timer. -/
theorem PollStep.timer_cases {s t : State} (h : PollStep s t) :
    (t.busy = s.busy ∧ t.tmr = s.tmr) ∨
      (s.busy = false ∧ t.busy = true ∧
        ∃ id v, (s.tmr.get id).armed = false ∧ v.armed = true ∧ t.tmr = s.tmr.set v id) := by
  cases h with
  | reset h hb ha | presenceWindow h hb hp hr ha | settle h hb ht hs ha =>
    exact .inr ⟨hb, rfl, .rst, _, ha, rfl, rfl⟩
  | writeSlot c h hb ht ha => exact .inr ⟨hb, rfl, .wr, _, ha, rfl, rfl⟩
  | readSlot h hb hp ha => exact .inr ⟨hb, rfl, .rd, _, ha, rfl, rfl⟩
  | _ => simp

/-- A POLL that changes the phase does so from a line state, to a phase of the register. -/
theorem PollStep.txn_cases {s t : State} (h : PollStep s t) :
    t.txn = s.txn ∨ (s.txn.toNat ≤ 6 ∧ t.txn.toNat ≤ 8) := by
  cases h with
  | busyTick h =>
    rcases wdtTick_txn_cases s with hkeep | ⟨herr, -, -⟩
    · exact .inl hkeep
    · exact .inr ⟨h, by rw [herr]; decide⟩
  | underrun h =>
    rcases wdtTick_txn_cases { s with undr := true } with hkeep | ⟨herr, -, -⟩
    · exact .inl hkeep
    · exact .inr ⟨by rcases h with h | h <;> rw [h] <;> decide, by rw [herr]; decide⟩
  | parseSample h | parseOverflow h => exact .inr ⟨by rw [h]; decide, by dsimp only; split <;> decide⟩
  | illegal | doubleArm | presenceWindow | writeSlot | settle | readSlot | conversionPending | report | reportError
  | idle => exact .inl rfl
  | reset h | presenceSeen h | presenceTimeout h | skipRomExit h | convertSkip h | convertExit h | conversionDone h
  | readSpExit h | parseGuard h => exact .inr ⟨by rw [h]; decide, by dsimp only; decide⟩

/-- A POLL consumes from the ring: it never writes the storage, and the head only in PollConversion (R82). -/
theorem PollStep.ring_cases {s t : State} (h : PollStep s t) :
    t.ring.buf = s.ring.buf ∧ (t.ring.head = s.ring.head ∨ (s.txn = 4 ∧ t.ring.head = 0)) := by
  cases h with
  | conversionDone h => exact ⟨rfl, .inr ⟨h, rfl⟩⟩
  | busyTick | underrun => simp
  | _ => exact ⟨rfl, .inl rfl⟩

/-- A POLL only ever clears the presence flag, and leaves the overflow flag. -/
theorem PollStep.presSeen_ovr {s t : State} (h : PollStep s t) :
    (t.presSeen = true → s.presSeen = true) ∧ t.ovr = s.ovr := by
  cases h <;> simp

theorem PollStep.temp_cases {s t : State} (h : PollStep s t) :
    t.temp = s.temp ∨ (s.txn = 7 ∧ s.done = false) := by
  cases h with
  | report h hd => exact .inr ⟨h, hd⟩
  | _ => simp

/-- A POLL leaves the two report flags, or sets the one of its phase. -/
theorem PollStep.report_cases {s t : State} (h : PollStep s t) :
    (t.done = s.done ∧ t.err = s.err) ∨ (s.txn = 7 ∧ t.done = true) ∨ (s.txn = 8 ∧ t.err = true) := by
  cases h with
  | report h hd => exact .inr (.inl ⟨h, rfl⟩)
  | reportError h he => exact .inr (.inr ⟨h, rfl⟩)
  | _ => simp

/-! ### Every instruction, by its effect -/

/-- INIT as a stimulus, or as the CTRL strobe (R118). -/
def IsInit (i : Instr) : Prop := i = .init ∨ ∃ value, i = .memWrite 0 4 value ∧ value.getLsbD 0 = true

/-- The next states of `InstrStep`, by the kind of effect: an instruction is a POLL, an INIT that a POLL may follow, a
register access that strobes nothing, an edge, or the event of a timer. -/
inductive Effect (s : State) : Instr → State → Prop where
  | poll {i : Instr} {t : State} (hi : i.context = .poll) (h : PollStep s t) : Effect s i t
  | init {i : Instr} (hi : IsInit i) : Effect s i (initEntry s)
  | initPoll {i : Instr} {t : State} (hi : IsInit i) (h : PollStep (initEntry s) t) : Effect s i t
  | badAccess {i : Instr} (hi : i.context = .poll) : Effect s i (s.raise .badAccess)
  | read {i : Instr} (hi : i.context = .poll) (v : Option Word) : Effect s i { s with busData := v }
  | ignored {i : Instr} (hi : i.context = .poll) : Effect s i s
  | edgeF : Effect s .edgeF (edgeFall s)
  | edgeR : Effect s .edgeR s
  | capture (id : TimerId) (level : Bool) (h : captureEnabled id s = true) :
      Effect s (id.tcap level) (capture id level s)
  | terminal (id : TimerId) (h : terminalEnabled id s = true) : Effect s id.tend (terminal id s)

theorem accessLegal_width {off : BitVec 32} {width : Nat} (h : accessLegal off width = true) : width = 4 := by
  simp only [accessLegal, accessWidthOk, Bool.and_eq_true, decide_eq_true_eq] at h
  obtain ⟨⟨hwidth, -⟩, -⟩ := h
  exact hwidth

theorem ctrlStep_effect {value : Word} {s t : State} (h : CtrlStep value s t) :
    Effect s (.memWrite 0 4 value) t := by
  cases hinit : value.getLsbD 0
  · rcases h with ⟨-, ht⟩ | ⟨-, hp⟩
    · rw [ht, hinit]
      exact .ignored rfl
    · rw [hinit] at hp
      exact .poll rfl hp
  · have hi : IsInit (.memWrite 0 4 value) := .inr ⟨value, rfl, hinit⟩
    rcases h with ⟨-, ht⟩ | ⟨-, hp⟩
    · rw [ht, hinit]
      exact .init hi
    · rw [hinit] at hp
      exact .initPoll hi hp

theorem exec_effect {i : Instr} {s t : State} (h : exec i s = .next t) : Effect s i t := by
  obtain ⟨-, h⟩ := exec_next h
  cases i with
  | init => cases h; exact .init (.inl rfl)
  | edgeF => cases h; exact .edgeF
  | edgeR => cases h; exact .edgeR
  | tcapRst level => obtain ⟨he, rfl⟩ := h; exact .capture .rst level he
  | tcapWr level => obtain ⟨he, rfl⟩ := h; exact .capture .wr level he
  | tcapRd level => obtain ⟨he, rfl⟩ := h; exact .capture .rd level he
  | tendRst => obtain ⟨he, rfl⟩ := h; exact .terminal .rst he
  | tendWr => obtain ⟨he, rfl⟩ := h; exact .terminal .wr he
  | tendRd => obtain ⟨he, rfl⟩ := h; exact .terminal .rd he
  | memRead off width =>
    rcases h with ⟨-, rfl⟩ | ⟨-, rfl⟩
    · exact .read rfl _
    · exact .badAccess rfl
  | memWrite off width value =>
    rcases h with ⟨-, rfl⟩ | ⟨-, -, rfl⟩ | ⟨hl, rfl, hc⟩
    · exact .badAccess rfl
    · exact .ignored rfl
    · cases accessLegal_width hl
      exact ctrlStep_effect hc
  | _ => exact .poll rfl h

theorem IsInit.context_eq {i : Instr} (h : IsInit i) : i.context = .poll := by
  obtain rfl | ⟨value, rfl, -⟩ := h <;> rfl

theorem TimerId.tcap_context (id : TimerId) (level : Bool) : (id.tcap level).context = .isr := by cases id <;> rfl

theorem TimerId.tend_context (id : TimerId) : id.tend.context = .isr := by cases id <;> rfl

end Sys2Proof.Machine
end

section
/-! PROOFS. The rules about every instruction: the phase (R15, R88, R132), the contexts' fields (R33, R138), busy and
the timers (R17, R73, R89), the interrupt level (R135), and what records a fault (R50, R128). -/

namespace Sys2Proof.Machine

/-! ### The events of the ISR context -/

theorem edgeFall_frame (s : State) : edgeFall s = { s with presSeen := (edgeFall s).presSeen } := by
  unfold edgeFall
  split <;> rfl

theorem terminal_frame (id : TimerId) (s : State) :
    terminal id s = { s with
      tmr := s.tmr.set { s.tmr.get id with armed := false } id, busy := false
      pwin := (terminal id s).pwin, drv := (terminal id s).drv } := by
  cases id <;> rfl

@[simp] theorem edgeFall_txn (s : State) : (edgeFall s).txn = s.txn := by rw [edgeFall_frame]
@[simp] theorem edgeFall_busy (s : State) : (edgeFall s).busy = s.busy := by rw [edgeFall_frame]
@[simp] theorem edgeFall_irqOut (s : State) : irqOut (edgeFall s) = irqOut s := by rw [edgeFall_frame]; rfl
@[simp] theorem capture_txn (id : TimerId) (level : Bool) (s : State) : (capture id level s).txn = s.txn := rfl
@[simp] theorem capture_busy (id : TimerId) (level : Bool) (s : State) : (capture id level s).busy = s.busy := rfl
@[simp] theorem capture_irqOut (id : TimerId) (level : Bool) (s : State) :
    irqOut (capture id level s) = irqOut s := rfl
@[simp] theorem terminal_txn (id : TimerId) (s : State) : (terminal id s).txn = s.txn := by rw [terminal_frame]
@[simp] theorem terminal_busy (id : TimerId) (s : State) : (terminal id s).busy = false := by rw [terminal_frame]
@[simp] theorem terminal_irqOut (id : TimerId) (s : State) : irqOut (terminal id s) = irqOut s := by
  rw [terminal_frame]
  rfl

/-- The fields a step in ISR context owns (R33), and the direction it writes them in. -/
def KeepsToIsrSide (s t : State) : Prop :=
  t = { s with busy := t.busy, presSeen := t.presSeen, pwin := t.pwin, ring := t.ring, drv := t.drv
               tmr := t.tmr, ovr := t.ovr, log := t.log } ∧
  (t.busy = true → s.busy = true) ∧ (t.pwin = true → s.pwin = true) ∧
  (s.presSeen = true → t.presSeen = true) ∧ (t.drv = s.drv ∨ t.drv = .rel)

theorem keepsToIsrSide_refl (s : State) : KeepsToIsrSide s s := ⟨rfl, id, id, id, .inl rfl⟩

theorem keepsToIsrSide_edgeFall (s : State) : KeepsToIsrSide s (edgeFall s) := by
  by_cases hwindow : s.txn = Phase.presence.code ∧ s.pwin = true
  · rw [edgeFall_of_window hwindow]
    exact ⟨rfl, id, id, fun _ => rfl, .inl rfl⟩
  · rw [edgeFall_of_not_window hwindow]
    exact keepsToIsrSide_refl s

theorem keepsToIsrSide_capture (id : TimerId) (level : Bool) (s : State) :
    KeepsToIsrSide s (capture id level s) :=
  ⟨rfl, fun h => h, fun h => h, fun h => h, .inl rfl⟩

theorem keepsToIsrSide_terminal (id : TimerId) (s : State) : KeepsToIsrSide s (terminal id s) := by
  cases id with
  | rst => exact ⟨rfl, by simp, by simp [terminal], fun h => h, .inl rfl⟩
  | wr => exact ⟨rfl, by simp, fun h => h, fun h => h, .inr rfl⟩
  | rd => exact ⟨rfl, by simp, fun h => h, fun h => h, .inl rfl⟩

theorem Effect.keepsToIsrSide {i : Instr} {s t : State} (h : Effect s i t) (hi : i.context = .isr) :
    KeepsToIsrSide s t := by
  have hnot : i.context ≠ .poll := by rw [hi]; decide
  cases h with
  | poll hpoll | badAccess hpoll | read hpoll | ignored hpoll => exact absurd hpoll hnot
  | init hinit | initPoll hinit => exact absurd hinit.context_eq hnot
  | edgeF => exact keepsToIsrSide_edgeFall s
  | edgeR => exact keepsToIsrSide_refl s
  | capture id level => exact keepsToIsrSide_capture id level s
  | terminal id => exact keepsToIsrSide_terminal id s

/-! ### The phase -/

/-- Every instruction keeps the phase, is INIT, or moves it from a line state to a phase of the register. -/
theorem Effect.txn_cases {i : Instr} {s t : State} (h : Effect s i t) :
    t.txn = s.txn ∨ (IsInit i ∧ t.txn.toNat ≤ 8) ∨ (s.txn.toNat ≤ 6 ∧ t.txn.toNat ≤ 8) := by
  cases h with
  | poll hi h => exact h.txn_cases.imp_right .inr
  | init hi => exact .inr (.inl ⟨hi, by simp⟩)
  | initPoll hi h =>
    refine .inr (.inl ⟨hi, ?_⟩)
    rcases h.txn_cases with hkeep | ⟨-, hle⟩
    · simp [hkeep]
    · exact hle
  | _ => simp

theorem eq_eight_of_bounds {x : BitVec 4} (hle : x.toNat ≤ 8) (hge : 8 ≤ x.toNat) : x = 8 :=
  BitVec.eq_of_toNat_eq (Nat.le_antisymm hle hge)

theorem eq_sixteen_of_bounds {x : BitVec 5} (hle : x.toNat ≤ 16) (hge : 16 ≤ x.toNat) : x = 16 :=
  BitVec.eq_of_toNat_eq (Nat.le_antisymm hle hge)

/-- An entry that reads 1 lies inside the storage (log 20). -/
theorem Ring.getElem?_of_oldest {r : Ring} (h : r.oldest = true) : r.buf[r.tail.toNat]? = some true := by
  rw [Ring.oldest, List.getD_eq_getElem?_getD] at h
  cases hget : r.buf[r.tail.toNat]? with
  | none => simp [hget] at h
  | some b => simpa [hget] using h

/-- The transitions a POLL can make, each with its condition (R88). -/
theorem PollStep.transition {s t : State} (h : PollStep s t) (htx : s.txBit.toNat ≤ 8) (hrx : s.rxBit.toNat ≤ 16) :
    t.txn = s.txn ∨
    (s.txn = 0 ∧ t.txn = 1) ∨
    (s.txn = 1 ∧ t.txn = 2 ∧ s.presSeen = true) ∨
    (s.txn = 1 ∧ t.txn = 8 ∧ s.presSeen = false ∧ s.retry = 0) ∨
    (s.txn = 2 ∧ t.txn = 3 ∧ s.txBit = 8) ∨
    (s.txn = 3 ∧ t.txn = 5 ∧ s.txBit = 0 ∧ s.settle = false ∧ s.convDone = true) ∨
    (s.txn = 3 ∧ t.txn = 4 ∧ s.txBit = 8 ∧ s.settle = true) ∨
    (s.txn = 4 ∧ t.txn = 0 ∧ s.rdPend = true ∧ s.ring.count ≠ 0 ∧ s.ring.buf[s.ring.tail.toNat]? = some true) ∨
    (s.txn = 5 ∧ t.txn = 6 ∧ s.txBit = 8) ∨
    (s.txn = 6 ∧ t.txn = 7 ∧ t.rxBit = 16) ∨
    (s.txn.toNat ≤ 6 ∧ t.txn = 8 ∧ s.cfg.wdtLimit ≠ 0 ∧ t.errcode = .stall) := by
  cases h with
  | busyTick h hb =>
    rcases wdtTick_txn_cases s with hkeep | ⟨herr, hlimit, hcause⟩
    · simp [hkeep]
    · simp [h, herr, hcause, show ¬s.cfg.wdtLimit = 0#16 from hlimit]
  | underrun h hb hp hc =>
    have hline : s.txn.toNat ≤ 6 := by rcases h with h | h <;> rw [h] <;> decide
    rcases wdtTick_txn_cases { s with undr := true } with hkeep | ⟨herr, hlimit, hcause⟩
    · simp [hkeep]
    · simp [hline, herr, hcause, show ¬s.cfg.wdtLimit = 0#16 from hlimit]
  | illegal | doubleArm | presenceWindow | writeSlot | settle | readSlot | conversionPending | report | reportError
  | idle => exact .inl rfl
  | reset h => simp [h]
  | presenceSeen h hb hp => simp [h, hp]
  | presenceTimeout h hb hp hr => simp [h, hp, hr]
  | skipRomExit h hb ht => simp [h, eq_eight_of_bounds htx ht]
  | convertSkip h hb hk => simp [h, convertSkipped_iff.1 hk]
  | convertExit h hb ht hs => simp [h, hs, eq_eight_of_bounds htx ht]
  | conversionDone h hb hp hc hv => simp [h, hp, show ¬s.ring.count = 0#6 from hc, Ring.getElem?_of_oldest hv]
  | readSpExit h hb ht => simp [h, eq_eight_of_bounds htx ht]
  | parseGuard h hb hp hr => simp [h, eq_sixteen_of_bounds hrx hr]
  | parseSample h hb hp hc hr =>
    by_cases hlast : s.rxBit.toNat = 15
    · have hfull : s.rxBit + 1#5 = 16#5 := BitVec.eq_of_toNat_eq ((rxBit_succ hr).trans (by rw [hlast]; rfl))
      simp [h, hlast, hfull]
    · simp [h, hlast]
  | parseOverflow h hb hp hc hr => simp [h, eq_sixteen_of_bounds hrx hr]

/-! ### The fields of the poll context -/

theorem Timers.get_set (m : Timers) (v : Timer) (id id' : TimerId) :
    (m.set v id).get id' = if id' = id then v else m.get id' := by
  cases id <;> cases id' <;> rfl

/-- A POLL changes a timer only by arming it, from idle. -/
theorem PollStep.timer_kept_or_armed {s t : State} (h : PollStep s t) (id : TimerId) :
    t.tmr.get id = s.tmr.get id ∨ ((s.tmr.get id).armed = false ∧ (t.tmr.get id).armed = true) := by
  rcases h.timer_cases with ⟨-, hsame⟩ | ⟨-, -, id', v, hidle, harmed, hset⟩
  · exact .inl (by rw [hsame])
  · rw [hset, Timers.get_set]
    by_cases hid : id = id'
    · subst hid
      exact .inr ⟨hidle, by simpa using harmed⟩
    · exact .inl (if_neg hid)

/-- The poll context's side of the ownership table (R33). -/
def KeepsToPollSide (s t : State) : Prop :=
  t.ring.buf = s.ring.buf ∧ (s.busy = true → t.busy = true) ∧ (t.presSeen = true → s.presSeen = true) ∧
  (t.ovr = true → s.ovr = true) ∧ (t.ring.head = s.ring.head ∨ (s.txn = 4 ∧ t.ring.head = 0)) ∧
  (t.temp = s.temp ∨ (s.txn = 7 ∧ s.done = false)) ∧
  (∀ id, t.tmr.get id = s.tmr.get id ∨ ((s.tmr.get id).armed = false ∧ (t.tmr.get id).armed = true)) ∧
  t.cfg = s.cfg ∧ t.trace = s.trace ∧ t.pos = s.pos

theorem PollStep.busy_kept {s t : State} (h : PollStep s t) (hb : s.busy = true) : t.busy = true := by
  rcases h.timer_cases with ⟨hsame, -⟩ | ⟨hfree, -⟩
  · rw [hsame, hb]
  · rw [hb] at hfree
    cases hfree

theorem PollStep.keepsToPollSide {s t : State} (h : PollStep s t) : KeepsToPollSide s t := by
  obtain ⟨hcfg, htrace, hpos, -⟩ := h.inputs_kept
  obtain ⟨hbuf, hhead⟩ := h.ring_cases
  obtain ⟨hpres, hovr⟩ := h.presSeen_ovr
  exact ⟨hbuf, h.busy_kept, hpres, fun ho => hovr ▸ ho, hhead, h.temp_cases, h.timer_kept_or_armed, hcfg, htrace, hpos⟩

/-- A POLL that follows an INIT starts in Reset, so it writes neither the ring head nor the temperature. -/
theorem PollStep.keepsToPollSide_init {s t : State} (h : PollStep (initEntry s) t) : KeepsToPollSide s t := by
  obtain ⟨hbuf, hbusy, hpres, hovr, hhead, htemp, htmr, hcfg, htrace, hpos⟩ := h.keepsToPollSide
  refine ⟨hbuf, hbusy, fun hp => absurd (hpres hp) (by simp), fun ho => absurd (hovr ho) (by simp), ?_, ?_, htmr, hcfg,
    htrace, hpos⟩
  · exact hhead.imp_right fun hpoll => absurd hpoll.1 (by simp)
  · exact htemp.imp_right fun hdone => absurd hdone.1 (by simp)

theorem Effect.keepsToPollSide {i : Instr} {s t : State} (h : Effect s i t) (hi : i.context = .poll) :
    KeepsToPollSide s t := by
  have hnot : i.context ≠ .isr := by rw [hi]; decide
  cases h with
  | poll _ h => exact h.keepsToPollSide
  | initPoll _ h => exact h.keepsToPollSide_init
  | init => simp [KeepsToPollSide]
  | badAccess => simp [KeepsToPollSide]
  | read | ignored => simp [KeepsToPollSide]
  | edgeF | edgeR => exact absurd rfl hnot
  | capture id level => exact absurd (TimerId.tcap_context id level) hnot
  | terminal id => exact absurd (TimerId.tend_context id) hnot

/-! ### Busy and the armed timers -/

theorem PollStep.busy_cases {s t : State} (h : PollStep s t) :
    t.busy = s.busy ∨ (t.busy = true ∧ ∃ id, (s.tmr.get id).armed = false ∧ (t.tmr.get id).armed = true) := by
  rcases h.timer_cases with ⟨hsame, -⟩ | ⟨-, hset, id, v, hidle, harmed, htmr⟩
  · exact .inl hsame
  · exact .inr ⟨hset, id, hidle, by simp [htmr, Timers.get_set, harmed]⟩

/-- Busy changes where a POLL arms a timer, and at a terminal event. -/
theorem Effect.busy_cases {i : Instr} {s t : State} (h : Effect s i t) :
    t.busy = s.busy ∨ (t.busy = true ∧ ∃ id, (s.tmr.get id).armed = false ∧ (t.tmr.get id).armed = true) ∨
      (t.busy = false ∧ ∃ id : TimerId, i = id.tend) := by
  cases h with
  | poll _ h | initPoll _ h => exact h.busy_cases.imp_right .inl
  | terminal id => exact .inr (.inr ⟨terminal_busy id s, id, rfl⟩)
  | _ => simp

theorem Timers.armedCount_set_le (m : Timers) (v : Timer) (id : TimerId) :
    (m.set v id).armedCount ≤ m.armedCount + 1 := by
  have hv : v.armed.toNat ≤ 1 := Bool.toNat_le _
  cases id <;> simp only [Timers.armedCount, Timers.set] <;> omega

theorem PollStep.armedCount_le {s t : State} (h : PollStep s t) : t.tmr.armedCount ≤ s.tmr.armedCount + 1 := by
  rcases h.timer_cases with ⟨-, hsame⟩ | ⟨-, -, id, v, -, -, hset⟩
  · rw [hsame]
    exact Nat.le_succ _
  · rw [hset]
    exact Timers.armedCount_set_le _ _ _

/-! ### The interrupt level -/

theorem PollStep.irq_cases {s t : State} (h : PollStep s t) :
    irqOut t = irqOut s ∨ (irqOut t = true ∧ ((s.txn = 7 ∧ t.done = true) ∨ (s.txn = 8 ∧ t.err = true))) := by
  rcases h.report_cases with ⟨hdone, herr⟩ | ⟨hphase, hdone⟩ | ⟨hphase, herr⟩
  · exact .inl (by rw [irqOut, hdone, herr, irqOut])
  · exact .inr ⟨by simp [irqOut, hdone], .inl ⟨hphase, hdone⟩⟩
  · exact .inr ⟨by simp [irqOut, herr], .inr ⟨hphase, herr⟩⟩

theorem PollStep.irq_init {s t : State} (h : PollStep (initEntry s) t) : irqOut t = false := by
  rcases h.irq_cases with hsame | ⟨-, ⟨hphase, -⟩ | ⟨hphase, -⟩⟩
  · exact hsame
  · exact absurd hphase (by simp)
  · exact absurd hphase (by simp)

/-- The level changes at INIT, which lowers it, and at a report, which raises it. -/
theorem Effect.irq_cases {i : Instr} {s t : State} (h : Effect s i t) :
    irqOut t = irqOut s ∨ (IsInit i ∧ irqOut t = false) ∨
      (irqOut t = true ∧ ((s.txn = 7 ∧ t.done = true) ∨ (s.txn = 8 ∧ t.err = true))) := by
  cases h with
  | poll _ h => exact h.irq_cases.imp_right .inr
  | init hi => exact .inr (.inl ⟨hi, rfl⟩)
  | initPoll hi h => exact .inr (.inl ⟨hi, h.irq_init⟩)
  | badAccess | read | ignored | edgeR => exact .inl rfl
  | edgeF => exact .inl (edgeFall_irqOut s)
  | capture id level => exact .inl (capture_irqOut id level s)
  | terminal id => exact .inl (terminal_irqOut id s)

/-! ### Faults -/

theorem exec_poll_of_illegal {s : State} (hf : s.fault = FaultSet.empty) (h : 9 ≤ s.txn.toNat) :
    exec .poll s = .next (s.raise .illegalState) := by
  simp only [exec, execPoll, (Phase.ofCode_eq_none_iff _).2 h]
  exact perform_of_error hf rfl

/-- A POLL whose arm raises a fault is void but for the reason (R128). -/
theorem exec_poll_of_error {p : Phase} {armOf : State → Except FaultReason (Progress × State)} {s : State}
    {r : FaultReason} (hp : ∀ s, exec p.arm s = performArm p (lineStep armOf) s) (hf : s.fault = FaultSet.empty)
    (ht : s.txn = p.code) (hb : s.busy = false) (harm : armOf s = .error r) :
    exec .poll s = .next (s.raise r) :=
  (execPoll_eq_performArm ht (hp s)).trans (perform_lineStep_error hf hb harm)

theorem raise_illegalState_of_unfaulted {s : State} (hf : s.fault = FaultSet.empty) :
    s.raise .illegalState = { s with fault := ⟨true, false, false⟩ } := by
  rw [State.raise, hf]
  rfl

theorem raise_doubleArm_of_unfaulted {s : State} (hf : s.fault = FaultSet.empty) :
    s.raise .doubleArm = { s with fault := ⟨false, true, false⟩ } := by
  rw [State.raise, hf]
  rfl

/-! ### An address outside the view -/

theorem Config.swpeBase_aligned (c : Config) : c.swpeBase.toNat % 64 = 0 := by
  have h := c.wf
  simp only [Params.wf, Bool.and_eq_true, decide_eq_true_eq] at h
  omega

/-- The base is 64-byte aligned, so an address below it is more than a view's size below it modulo 2^32. -/
theorem viewOffset_ge {addr : BitVec 32} {s : State}
    (h : addr.toNat < s.cfg.swpeBase.toNat ∨ s.cfg.swpeBase.toNat + 64 ≤ addr.toNat) :
    0x40 ≤ (viewOffset addr s).toNat := by
  have haligned := Config.swpeBase_aligned s.cfg
  have hbase := s.cfg.swpeBase.isLt
  have haddr := addr.isLt
  rw [viewOffset, BitVec.toNat_sub]
  omega

end Sys2Proof.Machine

namespace Sys2Proof.Proofs

open Sys2Proof.Machine

/-- Settles O13: no phase selects an arm there; and what moves the phase moves it to one of the register's phases. -/
theorem illegalPhaseRecordsAFaultAndIsNeverWritten : Obligations.IllegalPhaseRecordsAFaultAndIsNeverWritten := by
  refine ⟨fun s hf hphase => ?_, fun i s t h hphase => ?_⟩
  · rw [exec_poll_of_illegal hf hphase, raise_illegalState_of_unfaulted hf]
  · rcases (exec_effect h).txn_cases with hkeep | ⟨-, hle⟩ | ⟨-, hle⟩
    · exact hkeep
    · omega
    · omega

/-- Settles O14, arm by arm: each stops at the timer it would arm. -/
theorem doubleArmVoidsTheWholeStep : Obligations.DoubleArmVoidsTheWholeStep := by
  intro s hf hb
  rw [← raise_doubleArm_of_unfaulted hf]
  refine ⟨?reset, ?presence, ?skipRom, ?convert, ?settle, ?pollConv, ?readSp, ?parse⟩
  case reset =>
    exact fun ht ha => exec_poll_of_error (p := .reset) (fun _ => rfl) hf ht hb (armReset_error ha)
  case presence =>
    intro ht hp hr ha
    refine exec_poll_of_error (p := .presence) (fun _ => rfl) hf ht hb ?_
    rw [armPresence, if_neg (by simp [hp]), if_neg hr, openWindow_error ha]
  case skipRom =>
    intro ht hl ha
    refine exec_poll_of_error (p := .skipRom) (fun _ => rfl) hf ht hb ?_
    rw [armSkipRom, if_pos hl, writeSlot_of_armed ha]
  case convert =>
    intro ht hl hk ha
    refine exec_poll_of_error (p := .convertTemperature) (fun _ => rfl) hf ht hb ?_
    rw [armConvert, if_neg (convertSkipped_iff.not.2 hk), if_pos hl, writeSlot_of_armed ha]
  case settle =>
    intro ht hl hs ha
    refine exec_poll_of_error (p := .convertTemperature) (fun _ => rfl) hf ht hb ?_
    rw [armConvert, if_neg (not_convertSkipped_of_sent hl), if_neg (Nat.not_lt.2 hl), if_pos (by simp [hs]),
      startSettle_error ha]
  case pollConv =>
    intro ht hq ha
    refine exec_poll_of_error (p := .pollConversion) (fun _ => rfl) hf ht hb ?_
    rw [armPollConv, if_pos (by simp [hq]), issueRead_of_armed ha]
  case readSp =>
    intro ht hl ha
    refine exec_poll_of_error (p := .readScratchpad) (fun _ => rfl) hf ht hb ?_
    rw [armReadSp, if_pos hl, writeSlot_of_armed ha]
  case parse =>
    intro ht hq hr ha
    refine exec_poll_of_error (p := .parseScratchpad) (fun _ => rfl) hf ht hb ?_
    rw [armParse, if_pos (by simp [hq]), if_pos hr, issueRead_of_armed ha]

/-- Settles O19: the outcomes of a POLL keep the inputs and log at most one record. -/
theorem pollCompletesInEveryUnfaultedState : Obligations.PollCompletesInEveryUnfaultedState := by
  intro s hf
  obtain ⟨t, ht, hstep⟩ := exec_poll_unfaulted s hf
  exact ⟨t, ht, hstep.log_cases, hstep.inputs_kept⟩

/-- Settles O49: the POLL by its outcomes; INIT; the ISR context by the fields it owns; and the accesses. -/
theorem phaseTransitionsAreThoseOfTheTable : Obligations.PhaseTransitionsAreThoseOfTheTable := by
  refine ⟨fun s t htx hrx h => (exec_poll_next h).2.transition htx hrx, fun s t h => ?_, fun i s t hi h => ?_⟩
  · have ht : t = initEntry s := (exec_next h).2
    rw [ht, initEntry_txn]
  · rcases hi with hisr | ⟨off, width, rfl⟩ | ⟨off, width, value, rfl, hoff⟩
    · obtain ⟨hframe, -⟩ := (exec_effect h).keepsToIsrSide hisr
      rw [hframe]
    · obtain ⟨-, ⟨-, rfl⟩ | ⟨-, rfl⟩⟩ := exec_next h <;> rfl
    · obtain ⟨-, ⟨-, rfl⟩ | ⟨-, -, rfl⟩ | ⟨-, hctrl, -⟩⟩ := exec_next h
      · rfl
      · rfl
      · exact absurd hctrl hoff

/-- Settles O50: what moves the phase is INIT, or starts in a line state. -/
theorem onlyInitLeavesDoneOrError : Obligations.OnlyInitLeavesDoneOrError := by
  intro i s t hphase h
  rcases (exec_effect h).txn_cases with hkeep | ⟨hinit, -⟩ | ⟨hline, -⟩
  · exact .inl hkeep
  · exact .inr hinit
  · rcases hphase with hphase | hphase <;> simp [hphase] at hline

/-- Settles O51. -/
theorem isrContextWritesOnlyItsFields : Obligations.IsrContextWritesOnlyItsFields :=
  fun _ _ _ hi h => (exec_effect h).keepsToIsrSide hi

/-- Settles O52. -/
theorem pollContextWritesOnlyItsFields : Obligations.PollContextWritesOnlyItsFields :=
  fun _ _ _ hi h => (exec_effect h).keepsToPollSide hi

/-- Settles O53: what sets busy is a POLL that arms, and what clears it is a terminal event. -/
theorem busyIsSetWithAnArmAndClearedByATerminal : Obligations.BusyIsSetWithAnArmAndClearedByATerminal := by
  intro i s t h
  rcases (exec_effect h).busy_cases with hsame | ⟨hset, id, hidle, harms⟩ | ⟨hcleared, id, rfl⟩
  · exact ⟨fun hs ht => by simp [hsame, hs] at ht, fun hs ht => by simp [hsame, hs] at ht⟩
  · exact ⟨fun _ _ => ⟨id, hidle, harms⟩, fun _ ht => by simp [hset] at ht⟩
  · exact ⟨fun _ ht => by simp [hcleared] at ht, fun _ _ => by cases id <;> simp [TimerId.tend]⟩

/-- Settles O54: a POLL arms at most one timer; where busy gates it, it is a tick. -/
theorem pollPerformsAtMostOneAction : Obligations.PollPerformsAtMostOneAction := by
  intro s t h
  obtain ⟨hf, hstep⟩ := exec_poll_next h
  refine ⟨fun id harmed => ?_, hstep.armedCount_le, fun hline hb => ?_⟩
  · rcases hstep.timer_kept_or_armed id with hsame | ⟨-, harms⟩
    · rw [hsame, harmed]
    · exact harms
  · rw [exec_poll_of_busy hf hline hb] at h
    cases h
    exact ⟨wdtTick_tmr s, wdtTick_log s⟩

/-- Settles O55, by what changes the level. -/
theorem interruptRisesAtAReportAndFallsAtInit : Obligations.InterruptRisesAtAReportAndFallsAtInit := by
  intro i s t h
  rcases (exec_effect h).irq_cases with hsame | ⟨hinit, hlow⟩ | ⟨hhigh, hreport⟩
  · exact ⟨fun hs ht => by simp [hsame, hs] at ht, fun hs ht => by simp [hsame, hs] at ht⟩
  · exact ⟨fun _ ht => by simp [hlow] at ht, fun _ _ => hinit⟩
  · exact ⟨fun _ _ => hreport, fun _ ht => by simp [hhigh] at ht⟩

/-- Settles O16: the offset of such an address is outside the view, so the access is refused. -/
theorem addressOutsideTheViewIsABadAccess : Obligations.AddressOutsideTheViewIsABadAccess := by
  intro s addr width value rest hf htrace hout
  have hillegal : accessLegal (viewOffset addr s) width = false :=
    accessLegal_eq_false_iff.2 (.inr (.inr (viewOffset_ge hout)))
  have hf' : (s.advance rest).fault = FaultSet.empty := hf
  have hraise : (s.advance rest).raise .badAccess =
      { s with trace := rest, pos := s.pos + 1, fault := ⟨false, false, true⟩ } :=
    raise_badAccess_of_unfaulted hf'
  rw [← hraise]
  rcases htrace with hread | hwrite
  · exact (step_of_hostRead hread).trans (exec_memRead_of_illegal hf' hillegal)
  · exact (step_of_hostWrite hwrite).trans (exec_memWrite_of_illegal hf' hillegal value)

end Sys2Proof.Proofs
end

section
/-! PROOFS. The invariant of the reachable states (R29, R35): power-on has it and every step keeps it. -/

namespace Sys2Proof.Machine

/-! ### What the invariant says of an idle engine -/

theorem State.EngineInv.idle {s : State} (h : s.EngineInv) (hb : s.busy = false) :
    s.tmr.rst.armed = false ∧ s.tmr.wr.armed = false ∧ s.tmr.rd.armed = false := by
  have harmed := h.busyArmed
  rw [hb] at harmed
  simpa [and_assoc] using harmed.symm

theorem State.EngineInv.no_capture {s : State} (h : s.EngineInv) (hb : s.busy = false) :
    s.tmr.rd.capPend = false := by
  obtain ⟨-, -, hrd⟩ := h.idle hb
  refine Bool.eq_false_iff.2 fun hp => ?_
  rw [h.rdCapture hp] at hrd
  cases hrd

/-- Between POLLs of a read phase the sample of the outstanding slot waits in the ring (R77). -/
theorem State.Inv.sample_waits {s : State} (h : s.Inv) (hb : s.busy = false) (hp : s.rdPend = true) :
    s.ring.count = 1 :=
  h.rings.sample hp (h.engine.no_capture hb)

/-- So a POLL that consumes it empties the ring (R77). -/
theorem State.Inv.consume_empties {s : State} (h : s.Inv) (hb : s.busy = false) (hp : s.rdPend = true) :
    (s.ring.dropOldest s.cfg.cap).count = 0 := by
  rw [Ring.dropOldest, h.sample_waits hb hp]
  rfl

/-! ### The engine's part -/

theorem wdtTick_engineInv {s : State} (h : s.EngineInv) : (wdtTick s).EngineInv := by
  rcases wdtTick_cases s with ⟨-, ht⟩ | ⟨-, -, ht⟩ | ⟨-, hlt, ht⟩ <;> rw [ht]
  · exact h
  · exact { h with phase := by simp, released := fun _ => rfl, watchdog := .inl rfl }
  · have hlimit := s.cfg.wdtLimit.isLt
    have hexact : (s.wdt + 1).toNat = s.wdt.toNat + 1 := by
      rw [BitVec.toNat_add]
      exact Nat.mod_eq_of_lt (by simp; omega)
    exact { h with watchdog := .inr (by rw [hexact]; exact hlt) }

theorem initEntry_engineInv {s : State} (h : s.EngineInv) : (initEntry s).EngineInv :=
  { h with phase := by simp, txBit := by simp, rxBit := by simp, watchdog := .inl rfl }

theorem PollStep.phase_le {s t : State} (hp : PollStep s t) (h : s.txn.toNat ≤ 8) : t.txn.toNat ≤ 8 := by
  rcases hp.txn_cases with hkeep | ⟨-, hle⟩
  · rw [hkeep]
    exact h
  · exact hle

/-- Arming one timer of an idle engine leaves exactly that one armed. -/
theorem State.EngineInv.arm_idle {s : State} (h : s.EngineInv) (hb : s.busy = false) {v : Timer}
    (hv : v.armed = true) (id : TimerId) {m : Timers} (hm : m = s.tmr.set v id) :
    (m.rst.armed || m.wr.armed || m.rd.armed) = true ∧ m.armedCount = 1 := by
  obtain ⟨hrst, hwr, hrd⟩ := h.idle hb
  subst hm
  cases id <;> simp [Timers.set, Timers.armedCount, hv, hrst, hwr, hrd]

theorem PollStep.busy_armed {s t : State} (hp : PollStep s t) (h : s.EngineInv) :
    t.busy = (t.tmr.rst.armed || t.tmr.wr.armed || t.tmr.rd.armed) ∧ t.tmr.armedCount ≤ 1 := by
  rcases hp.timer_cases with ⟨hbusy, htmr⟩ | ⟨hfree, hset, id, v, -, hv, htmr⟩
  · rw [hbusy, htmr]
    exact ⟨h.busyArmed, h.oneArmed⟩
  · obtain ⟨harmed, hone⟩ := h.arm_idle hfree hv id htmr
    exact ⟨by rw [hset, harmed], hone.le⟩

/-- `S.retry - 1` does not wrap where the Presence arm takes it (R79). -/
theorem retry_pred_le {x : BitVec 8} (h : x ≠ 0) : (x - 1).toNat ≤ x.toNat := by
  have hpos : x.toNat ≠ 0 := fun h0 => h (BitVec.eq_of_toNat_eq h0)
  have hle : (1 : BitVec 8) ≤ x := Nat.one_le_iff_ne_zero.2 hpos
  rw [BitVec.toNat_sub_of_le hle]
  exact Nat.sub_le _ _

theorem PollStep.engineInv {s t : State} (hp : PollStep s t) (h : s.EngineInv) : t.EngineInv := by
  have phase := hp.phase_le h.phase
  obtain ⟨busyArmed, oneArmed⟩ := hp.busy_armed h
  cases hp with
  | illegal | doubleArm | reportError => exact { h with }
  | idle => exact h
  | busyTick => exact wdtTick_engineInv h
  | underrun => exact wdtTick_engineInv (s := { s with undr := true }) { h with }
  | reset ht hb ha =>
    obtain ⟨-, -, hrd⟩ := h.idle hb
    exact { h with
      phase, busyArmed, oneArmed
      rstCapture := rfl, window := by simp, released := by simp [hrd], retry := Nat.le_refl _, watchdog := .inl rfl }
  | presenceWindow ht hb hs hr ha =>
    exact { h with
      busyArmed, oneArmed
      rstCapture := rfl, window := fun _ => rfl, released := fun _ => rfl, retry := (retry_pred_le hr).trans h.retry
      watchdog := .inl rfl }
  | writeSlot c hc hb ht ha =>
    obtain ⟨-, -, hrd⟩ := h.idle hb
    exact { h with
      busyArmed, oneArmed
      txBit := by rw [txBit_succ ht]; omega
      wrCapture := rfl, released := by simp [hrd], watchdog := .inl rfl }
  | settle ht hb hl hs ha =>
    exact { h with
      busyArmed, oneArmed
      rstCapture := rfl, window := fun _ => rfl, watchdog := .inl rfl }
  | readSlot ht hb hq ha =>
    exact { h with
      busyArmed, oneArmed
      rdCapture := fun _ => rfl, released := fun _ => rfl, watchdog := .inl rfl }
  | presenceSeen | skipRomExit | convertExit => exact { h with phase, txBit := by simp, watchdog := .inl rfl }
  | presenceTimeout => exact { h with phase, released := fun _ => rfl, watchdog := .inl rfl }
  | convertSkip | conversionDone | conversionPending | parseGuard | parseOverflow =>
    exact { h with phase, watchdog := .inl rfl }
  | readSpExit => exact { h with phase, txBit := by simp, rxBit := by simp, watchdog := .inl rfl }
  | parseSample ht hb hq hc hr =>
    exact { h with phase, rxBit := by rw [rxBit_succ hr]; omega, watchdog := .inl rfl }
  | report => exact { h with rxBit := by simp }

theorem edgeFall_engineInv {s : State} (h : s.EngineInv) : (edgeFall s).EngineInv := by
  rw [edgeFall_frame]
  exact { h with }

theorem capture_engineInv {s : State} (level : Bool) (h : s.EngineInv) : (capture .rd level s).EngineInv :=
  { h with rdCapture := fun hp => by simp [capture_eq, Timers.set] at hp }

/-- The only timer with a capture pending is timer 2. -/
theorem State.EngineInv.eq_rd_of_capture {s : State} (h : s.EngineInv) {id : TimerId}
    (he : captureEnabled id s = true) : id = .rd := by
  obtain ⟨-, hpend⟩ := captureEnabled_iff.1 he
  cases id with
  | rst => exact absurd (h.rstCapture.symm.trans hpend) (by decide)
  | wr => exact absurd (h.wrCapture.symm.trans hpend) (by decide)
  | rd => rfl

theorem Timers.other_idle {m : Timers} (h : m.armedCount ≤ 1) {id id' : TimerId} (ha : (m.get id).armed = true)
    (hne : id' ≠ id) : (m.get id').armed = false := by
  refine Bool.eq_false_iff.2 fun hother => ?_
  have htwo : 2 ≤ m.armedCount := by
    cases id <;> cases id' <;> simp_all [Timers.get, Timers.armedCount]
  omega

/-- The timer that ends is the only one armed, so none is armed after it. -/
theorem terminal_disarms {s : State} {id : TimerId} (h : s.EngineInv) (he : terminalEnabled id s = true)
    (id' : TimerId) : ((terminal id s).tmr.get id').armed = false := by
  obtain ⟨harmed, -⟩ := terminalEnabled_iff.1 he
  rw [terminal_frame, Timers.get_set]
  split
  next => rfl
  next hne => exact Timers.other_idle h.oneArmed harmed hne

theorem terminal_engineInv {s : State} {id : TimerId} (h : s.EngineInv) (he : terminalEnabled id s = true) :
    (terminal id s).EngineInv := by
  have hrst : (terminal id s).tmr.rst.armed = false := terminal_disarms h he .rst
  have hwr : (terminal id s).tmr.wr.armed = false := terminal_disarms h he .wr
  have hrd : (terminal id s).tmr.rd.armed = false := terminal_disarms h he .rd
  have busyArmed : (terminal id s).busy = ((terminal id s).tmr.rst.armed || (terminal id s).tmr.wr.armed ||
      (terminal id s).tmr.rd.armed) := by simp [hrst, hwr, hrd]
  have oneArmed : (terminal id s).tmr.armedCount ≤ 1 := by simp [Timers.armedCount, hrst, hwr, hrd]
  have released : (terminal id s).tmr.rd.armed = true → (terminal id s).drv = .rel := by simp [hrd]
  obtain ⟨-, hcap⟩ := terminalEnabled_iff.1 he
  cases id with
  | rst => exact { h with busyArmed, oneArmed, window := by simp [terminal] }
  | wr => exact { h with busyArmed, oneArmed, released }
  | rd =>
    exact { h with busyArmed, oneArmed, released, rdCapture := fun hp => absurd (hcap.symm.trans hp) (by decide) }

/-! ### The ring's part -/

/-- An empty ring meets its part wherever no fired capture claims a sample. -/
theorem State.RingInv.of_emptied {s t : State} (h : s.RingInv) (hring : t.ring.Wf t.cfg.cap)
    (hempty : t.ring.count = 0) (hnone : t.rdPend = true → t.tmr.rd.capPend = true) (hundr : t.undr = s.undr)
    (hovr : t.ovr = s.ovr) (hfault : t.fault = s.fault) : t.RingInv where
  ring := hring
  oneSample := by simp [hempty]
  noSample := fun _ => hempty
  sample := fun hp hcap => by simp [hnone hp] at hcap
  noUnderrun := hundr.trans h.noUnderrun
  noOverflow := hovr.trans h.noOverflow
  noIllegalState := hfault ▸ h.noIllegalState
  noDoubleArm := hfault ▸ h.noDoubleArm

theorem PollStep.ringInv {s t : State} (hp : PollStep s t) (h : s.Inv) : t.RingInv := by
  have hrings := h.rings
  obtain ⟨hlow, hcap⟩ := Config.cap_bounds s.cfg
  cases hp with
  | illegal hphase => exact absurd h.engine.phase (by omega)
  | doubleArm ht hb ha =>
    obtain ⟨hrst, hwr, hrd⟩ := h.engine.idle hb
    simp [hrst, hwr, hrd] at ha
  | underrun ht hb hq hc => simp [h.sample_waits hb hq] at hc
  | busyTick =>
    rw [wdtTick_frame]
    exact { hrings with }
  | readSlot ht hb hq ha => exact hrings.of_emptied hrings.ring.flush rfl (fun _ => rfl) rfl rfl rfl
  | conversionDone ht hb hq hc hv =>
    exact hrings.of_emptied (hrings.ring.resetCursors (by omega)) rfl (by simp) rfl rfl rfl
  | conversionPending ht hb hq hc | parseSample ht hb hq hc | parseOverflow ht hb hq hc =>
    exact hrings.of_emptied (hrings.ring.dropOldest (by omega) hcap hc) (h.consume_empties hb hq) (by simp) rfl rfl rfl
  | convertExit | readSpExit => exact { hrings with sample := by simp }
  | idle => exact hrings
  | _ => exact { hrings with }

theorem edgeFall_ringInv {s : State} (h : s.RingInv) : (edgeFall s).RingInv := by
  rw [edgeFall_frame]
  exact { h with }

/-- A capture finds the ring empty, and leaves its sample as the only entry (R98). -/
theorem capture_empty_ring {s : State} (level : Bool) (h : s.RingInv) (hpend : s.tmr.rd.capPend = true) :
    (capture .rd level s).ring.Wf s.cfg.cap ∧
      (capture .rd level s).ring.contents s.cfg.cap = [receivedBit s.drv level] ∧
      (capture .rd level s).ring.count = 1 ∧ (capture .rd level s).ovr = false := by
  obtain ⟨hlow, hcap⟩ := Config.cap_bounds s.cfg
  have hempty : s.ring.count = 0 := h.noSample hpend
  have hroom : s.ring.isFull s.cfg.cap = false := by
    rw [Ring.isFull, hempty]
    exact decide_eq_false (by simp; omega)
  simp only [capture_eq]
  refine ⟨push_wf h.ring _, ?_, ?_, by rw [h.noOverflow, hroom]; rfl⟩
  · rw [Ring.contents_push_of_room h.ring hcap (by simp [hempty]; omega), Ring.contents_eq_nil_iff.2 hempty]
    rfl
  · simp [Ring.push, hroom, hempty]

theorem capture_ringInv {s : State} (level : Bool) (h : s.RingInv) (hpend : s.tmr.rd.capPend = true) :
    (capture .rd level s).RingInv := by
  obtain ⟨hwf, -, hone, hovr⟩ := capture_empty_ring level h hpend
  exact { h with
    ring := hwf
    oneSample := by simp [hone]
    noSample := fun hp => by simp [capture_eq, Timers.set] at hp
    sample := fun _ _ => hone
    noOverflow := hovr }

theorem terminal_ringInv {s : State} (id : TimerId) (h : s.RingInv) : (terminal id s).RingInv := by
  cases id <;> exact { h with }

theorem exec_tcap_of_not_enabled {id : TimerId} {level : Bool} {s : State} (hf : s.fault = FaultSet.empty)
    (he : captureEnabled id s = false) : exec (id.tcap level) s = .fault .notEnabled := by
  rw [exec_tcap]
  exact performWhen_of_not hf he

theorem exec_tend_of_not_enabled {id : TimerId} {s : State} (hf : s.fault = FaultSet.empty)
    (he : terminalEnabled id s = false) : exec id.tend s = .fault .notEnabled := by
  rw [exec_tend]
  exact performWhen_of_not hf he

/-! ### Every step -/

theorem PollStep.inv {s t : State} (hp : PollStep s t) (h : s.Inv) : t.Inv :=
  ⟨hp.engineInv h.engine, hp.ringInv h⟩

theorem initEntry_inv {s : State} (h : s.Inv) : (initEntry s).Inv :=
  ⟨initEntry_engineInv h.engine, { h.rings with sample := by simp, noUnderrun := rfl, noOverflow := rfl }⟩

theorem Effect.inv {i : Instr} {s t : State} (he : Effect s i t) (h : s.Inv) : t.Inv := by
  cases he with
  | poll _ hp => exact hp.inv h
  | init => exact initEntry_inv h
  | initPoll _ hp => exact hp.inv (initEntry_inv h)
  | badAccess | read => exact ⟨{ h.engine with }, { h.rings with }⟩
  | ignored | edgeR => exact h
  | edgeF => exact ⟨edgeFall_engineInv h.engine, edgeFall_ringInv h.rings⟩
  | capture id level hen =>
    cases h.engine.eq_rd_of_capture hen
    exact ⟨capture_engineInv level h.engine, capture_ringInv level h.rings (captureEnabled_iff.1 hen).2⟩
  | terminal id hen => exact ⟨terminal_engineInv h.engine hen, terminal_ringInv id h.rings⟩

theorem State.Inv.advance {s : State} (h : s.Inv) (rest : List Input) : (s.advance rest).Inv :=
  ⟨{ h.engine with }, { h.rings with }⟩

theorem powerOn_inv (cfg : Config) (u : Unspecified) : (State.powerOn cfg u).Inv where
  engine := by
    constructor <;> simp [State.powerOn, Timer.powerOn, Timers.armedCount]
  rings := by
    have hpos : 0 < cfg.cap := Nat.lt_of_lt_of_le (by decide) (Config.cap_bounds cfg).1
    refine ⟨Ring.Wf.powerOn hpos u.buf, ?_, ?_, ?_, rfl, rfl, rfl, rfl⟩ <;> simp [State.powerOn, Ring.powerOn]

theorem powerCycle_inv (s : State) (u : Unspecified) : (s.powerCycle u).Inv :=
  have h := powerOn_inv s.cfg u
  ⟨{ h.engine with }, { h.rings with }⟩

theorem runCode_next {c : Code} {w : Byte} {rest : List Input} {s t : State} (h : runCode c w rest s = .next t) :
    ∃ i, exec i (s.advance rest) = .next t := by
  unfold runCode at h
  split at h
  next i _ => exact ⟨i, h⟩
  next => cases h

/-- A step runs an instruction on the state with its input taken, or is a power-on reset. -/
theorem step_next {s t : State} (h : step s = .next t) :
    ∃ rest, (∃ i, exec i (s.advance rest) = .next t) ∨ ∃ u, t = (s.advance rest).powerCycle u := by
  unfold step at h
  split at h
  next => cases h
  next w rest _ => exact ⟨rest, .inl (runCode_next h)⟩
  next addr width rest _ => exact ⟨rest, .inl (runCode_next h)⟩
  next addr width value rest _ => exact ⟨rest, .inl (runCode_next h)⟩
  next u rest _ =>
    cases h
    exact ⟨rest, .inr ⟨u, rfl⟩⟩

end Sys2Proof.Machine

namespace Sys2Proof.Proofs

open Sys2Proof.Machine

/-- Settles O58: the power-on state has it, and `State.reset` is one. -/
theorem invariantHoldsAtPowerOn : Obligations.InvariantHoldsAtPowerOn :=
  ⟨powerOn_inv, powerOn_inv _ _⟩

/-- Settles O59: every effect of an instruction keeps the invariant, and a power-on reset sets it up. -/
theorem everyStepKeepsTheInvariant : Obligations.EveryStepKeepsTheInvariant := by
  intro s t h hstep
  obtain ⟨rest, ⟨i, hexec⟩ | ⟨u, rfl⟩⟩ := step_next hstep
  · exact (exec_effect hexec).inv (h.advance rest)
  · exact powerCycle_inv _ u

/-- Settles O60: the line is released while the capture is pending, and the ring is empty. -/
theorem reachableCaptureSamplesTheDevice : Obligations.ReachableCaptureSamplesTheDevice := by
  intro s level h hf
  have hnot (id : TimerId) (hid : id ≠ .rd) : exec (id.tcap level) s = .fault .notEnabled :=
    exec_tcap_of_not_enabled hf (Bool.eq_false_iff.2 fun he => hid (h.engine.eq_rd_of_capture he))
  refine ⟨hnot .rst (by decide), hnot .wr (by decide), fun hpend => ?_⟩
  have harmed : s.tmr.rd.armed = true := h.engine.rdCapture hpend
  have hlevel : receivedBit s.drv level = level := by rw [h.engine.released harmed]; rfl
  obtain ⟨-, hcontents, -, hovr⟩ := capture_empty_ring level h.rings hpend
  refine ⟨_, exec_tcap_of_enabled (id := .rd) hf (captureEnabled_iff.2 ⟨harmed, hpend⟩), ?_, ?_, hovr⟩
  · rw [capture_eq, hlevel]
  · rw [hcontents, hlevel]

end Sys2Proof.Proofs
end

section
/-! PROOFS. Where an instruction stops (R65, R66, R101, R128), and the steps of power-on reset (R36), INIT (R116), the
command bytes (R66), the host's accesses (R117, R118) and several lines (R141). -/

namespace Sys2Proof.Machine

/-! ### Stops -/

theorem performArm_of_not_selected {p : Phase} {f : State → Except FaultReason State} {s : State}
    (hf : s.fault = FaultSet.empty) (h : s.txn ≠ p.code) : performArm p f s = .refused .armNotSelected :=
  performWhen_of_not hf (decide_eq_false h)

theorem exec_arm_of_not_selected {p : Phase} {s : State} (hf : s.fault = FaultSet.empty) (h : s.txn ≠ p.code) :
    exec p.arm s = .refused .armNotSelected := by
  obtain ⟨f, hp⟩ := exec_arm_eq p
  rw [hp, performArm_of_not_selected hf h]

theorem exec_faulted (i : Instr) {s : State} (hf : s.fault ≠ FaultSet.empty) : exec i s = .fault .quiescent := by
  cases i with
  | init | edgeF | edgeR | memRead off width | memWrite off width value => exact if_neg hf
  | poll => exact exec_poll_faulted hf
  | tcapRst level | tcapWr level | tcapRd level | tendRst | tendWr | tendRd | skipRom | convertT | readScratchpad =>
    exact performWhen_of_faulted hf
  | pollReset => exact exec_arm_faulted .reset hf
  | pollPresence => exact exec_arm_faulted .presence hf
  | pollSkiprom => exact exec_arm_faulted .skipRom hf
  | pollConvert => exact exec_arm_faulted .convertTemperature hf
  | pollPollconv => exact exec_arm_faulted .pollConversion hf
  | pollReadsp => exact exec_arm_faulted .readScratchpad hf
  | pollParse => exact exec_arm_faulted .parseScratchpad hf
  | pollDone => exact exec_arm_faulted .done hf
  | pollError => exact exec_arm_faulted .error hf

/-! ### Command bytes -/

/-- A command byte that is transmitted is one write slot, and the POLL there. -/
theorem perform_sendBit {c : Byte} {s : State} (hf : s.fault = FaultSet.empty) (ha : s.tmr.wr.armed = false) :
    perform (sendBit c) s = .next { s with
      drv := if c.getLsbD s.txBit.toNat then .high else .low, busy := true
      tmr := { s.tmr with wr := { armed := true, capPend := false, period := s.cfg.tWriteSlot, cmp := none } }
      txBit := s.txBit + 1, log := s.log ++ [.wbit (c.getLsbD s.txBit.toNat)], wdt := 0 } :=
  perform_of_ok hf (sendBit_of_idle ha)

theorem transmits_eq_false {p : Phase} {s : State} (h : s.txn ≠ p.code ∨ s.busy = true ∨ 8 ≤ s.txBit.toNat) :
    transmits p s = false := by
  refine Bool.eq_false_iff.2 fun ht => ?_
  obtain ⟨htx, hb, hl, -⟩ := transmits_iff.1 ht
  rcases h with h | h | h
  · exact h htx
  · exact absurd (hb.symm.trans h) (by decide)
  · omega

theorem transmits_eq_false_of_skipped {s : State} (h : convertSkipped s = true) :
    transmits .convertTemperature s = false :=
  Bool.eq_false_iff.2 fun ht =>
    have ⟨_, _, _, hunskipped⟩ := transmits_iff.1 ht
    hunskipped ⟨rfl, h⟩

/-! ### Reset and INIT -/

theorem Config.ofParams_isSome_iff {p : Params} : (Config.ofParams p).isSome = true ↔ p.wf = true := by
  unfold Config.ofParams
  split <;> simp_all

theorem powerOn_timer_idle (cfg : Config) (u : Unspecified) (id : TimerId) :
    ((State.powerOn cfg u).tmr.get id).armed = false ∧ ((State.powerOn cfg u).tmr.get id).capPend = false := by
  cases id <;> exact ⟨rfl, rfl⟩

theorem powerOn_ring_getElem? {cfg : Config} {i : Nat} (hi : i < cfg.cap) (u : Unspecified) :
    (State.powerOn cfg u).ring.buf[i]? = some (u.buf.getLsbD i) := by
  simp [State.powerOn, Ring.powerOn, hi]

theorem exec_init_of_unfaulted {s : State} (hf : s.fault = FaultSet.empty) : exec .init s = .next (initEntry s) :=
  perform_total_eq_next_iff.2 ⟨hf, rfl⟩

/-! ### Register accesses -/

theorem accessLegal_of_bounds {off : BitVec 32} (haligned : off.toNat % 4 = 0) (hin : off.toNat < 0x40) :
    accessLegal off 4 = true := by
  simp [accessLegal, accessWidthOk, accessAligned, accessInView, haligned, hin]

theorem exec_memRead_of_legal {off : BitVec 32} {s : State} (hf : s.fault = FaultSet.empty)
    (h : accessLegal off 4 = true) :
    exec (.memRead off 4) s = .next { s with busData := some (readReg off s) } := by
  have haction : readAccess off 4 s = .ok { s with busData := some (readReg off s) } := if_pos h
  exact perform_of_ok hf haction

theorem exec_memWrite_of_legal {off : BitVec 32} {s : State} (hf : s.fault = FaultSet.empty)
    (h : accessLegal off 4 = true) (value : Word) :
    exec (.memWrite off 4 value) s = if off = 0 then ctrlWrite value s else .next s := by
  simp only [exec, execMemWrite, hf, h, if_true, writeReg]

theorem exec_ctrl {s : State} (hf : s.fault = FaultSet.empty) (value : Word) :
    exec (.memWrite 0 4 value) s = ctrlWrite value s :=
  exec_memWrite_of_legal hf (by decide) value

/-- A read is no part of what a register shows (R53). -/
theorem readReg_setBusData (off : BitVec 32) (v : Option Word) (s : State) :
    readReg off { s with busData := v } = readReg off s := rfl

/-! ### Several lines -/

theorem stepLine_eq_next {k : Nat} {ls ls' : Lines} (h : stepLine k ls = some (.next ls')) :
    ∃ s t, ls[k]? = some s ∧ step s = .next t ∧ ls' = ls.set k t := by
  unfold stepLine at h
  split at h
  next => cases h
  next s hs =>
    cases hstep : step s with
    | next t =>
      rw [hstep] at h
      cases h
      exact ⟨s, t, hs, hstep, rfl⟩
    | fault r => simp [hstep] at h
    | refused r => simp [hstep] at h

end Sys2Proof.Machine

namespace Sys2Proof.Proofs

open Sys2Proof.Machine

/-- Settles O8: building tests the constraints one by one. -/
theorem configurationIsBuiltExactlyUnderItsConstraints :
    Obligations.ConfigurationIsBuiltExactlyUnderItsConstraints := by
  intro p
  rw [Config.ofParams_isSome_iff]
  simp only [Params.wf, regSize, Bool.and_eq_true, decide_eq_true_eq, and_assoc]

/-- Settles O9: the next state is the power-on state with the trace kept, read field by field. -/
theorem powerOnResetSetsTheListedValues : Obligations.PowerOnResetSetsTheListedValues := by
  intro s u rest ht
  exact ⟨_, step_of_powerOn ht, rfl, rfl, rfl, rfl, rfl, rfl, rfl, rfl, rfl, rfl, rfl, rfl, rfl, rfl, rfl, rfl, rfl,
    rfl, rfl, rfl, State.powerOn_ring_length s.cfg u, rfl, rfl, rfl, rfl, powerOn_timer_idle s.cfg u, rfl, rfl,
    fun _ hi => powerOn_ring_getElem? hi u, rfl, rfl, rfl⟩

/-- Settles O10: each field is evaluated. -/
theorem resetHoldsTheListedValues : Obligations.ResetHoldsTheListedValues :=
  ⟨rfl, rfl, rfl, rfl, rfl, rfl, rfl, rfl, rfl, rfl, rfl, rfl, rfl, rfl, rfl, rfl, rfl, rfl,
    State.powerOn_ring_length _ _, rfl, rfl, rfl, rfl, powerOn_timer_idle _ _, rfl, rfl⟩

/-- Settles O11: INIT is `initEntry`, which is idempotent and raises no fault. -/
theorem initWritesExactlyItsFieldsAndIsIdempotent : Obligations.InitWritesExactlyItsFieldsAndIsIdempotent := by
  refine ⟨fun s hf => exec_init_of_unfaulted hf, fun s t h => ?_⟩
  obtain ⟨hf, ht⟩ := exec_next h
  have ht : t = initEntry s := ht
  subst ht
  exact exec_init_of_unfaulted hf

/-- Settles O12. -/
theorem faultedStateHasNoStep : Obligations.FaultedStateHasNoStep :=
  fun i _ hf => exec_faulted i hf

/-- Settles O17: the phase's code selects its arm, and no arm is selected past 8. -/
theorem pollRunsTheArmOfItsPhase : Obligations.PollRunsTheArmOfItsPhase := by
  intro s
  have harm (p : Phase) (ht : s.txn = p.code) : exec .poll s = exec p.arm s :=
    execPoll_of_phase (by rw [ht]; exact Phase.ofCode_code p)
  exact ⟨harm .reset, harm .presence, harm .skipRom, harm .convertTemperature, harm .pollConversion,
    harm .readScratchpad, harm .parseScratchpad, harm .done, harm .error,
    fun hf hphase => (exec_poll_of_illegal hf hphase).trans (by rw [raise_illegalState_of_unfaulted hf])⟩

/-- Settles O18, phase by phase. -/
theorem armStopsWhereItsPhaseIsNotSelected : Obligations.ArmStopsWhereItsPhaseIsNotSelected := by
  intro s hf
  have hstop (p : Phase) (ht : s.txn ≠ p.code) : exec p.arm s = .refused .armNotSelected :=
    exec_arm_of_not_selected hf ht
  exact ⟨hstop .reset, hstop .presence, hstop .skipRom, hstop .convertTemperature, hstop .pollConversion,
    hstop .readScratchpad, hstop .parseScratchpad, hstop .done, hstop .error⟩

/-- Settles O21: both read arms answer NOOP on the empty ring, which ticks the watchdog. -/
theorem underrunIsASoftNoOp : Obligations.UnderrunIsASoftNoOp := by
  intro s hf ht hb hq hc
  rcases ht with ht | ht
  · exact (execPoll_eq_performArm (p := .pollConversion) ht rfl).trans
      (perform_lineStep_ok hf hb (armPollConv_of_underrun hq (consume_of_empty hc)))
  · exact (execPoll_eq_performArm (p := .parseScratchpad) ht rfl).trans
      (perform_lineStep_ok hf hb (armParse_of_underrun hq (consume_of_empty hc)))

/-- Settles O31, byte by byte: where the phase transmits its byte, the byte's step is POLL's. -/
theorem commandByteStepSendsItsNextBit : Obligations.CommandByteStepSendsItsNextBit := by
  intro s i c hf hb hl ha hi
  rcases hi with ⟨rfl, rfl, ht⟩ | ⟨rfl, rfl, ht, hk⟩ | ⟨rfl, rfl, ht⟩
  · have hsend : transmits .skipRom s = true := transmits_iff.2 ⟨ht, hb, hl, by simp⟩
    exact ⟨(performWhen_of_ok hsend).trans (perform_sendBit hf ha), (skipRom_eq_poll hsend).symm⟩
  · have hsend : transmits .convertTemperature s = true :=
      transmits_iff.2 ⟨ht, hb, hl, fun hskip => hk (convertSkipped_iff.1 hskip.2)⟩
    exact ⟨(performWhen_of_ok hsend).trans (perform_sendBit hf ha), (convertT_eq_poll hsend).symm⟩
  · have hsend : transmits .readScratchpad s = true := transmits_iff.2 ⟨ht, hb, hl, by simp⟩
    exact ⟨(performWhen_of_ok hsend).trans (perform_sendBit hf ha), (readScratchpad_eq_poll hsend).symm⟩

/-- Settles O32, byte by byte: the phase does not transmit its byte there. -/
theorem commandByteStopsWhereItIsNotSent : Obligations.CommandByteStopsWhereItIsNotSent := by
  intro s hf
  refine ⟨fun h => performWhen_of_not hf (transmits_eq_false h), fun h => performWhen_of_not hf ?_,
    fun h => performWhen_of_not hf (transmits_eq_false h)⟩
  rcases h with h | h | h | h
  · exact transmits_eq_false (.inl h)
  · exact transmits_eq_false (.inr (.inl h))
  · exact transmits_eq_false (.inr (.inr h))
  · exact transmits_eq_false_of_skipped (convertSkipped_iff.2 h)

/-- Settles O38, timer by timer. -/
theorem timerStimulusNotEnabledHasNoStep : Obligations.TimerStimulusNotEnabledHasNoStep := by
  intro s level hf
  have hcap (id : TimerId) (h : ¬((s.tmr.get id).armed = true ∧ (s.tmr.get id).capPend = true)) :
      exec (id.tcap level) s = .fault .notEnabled :=
    exec_tcap_of_not_enabled hf (Bool.eq_false_iff.2 (captureEnabled_iff.not.2 h))
  have hend (id : TimerId) (h : ¬((s.tmr.get id).armed = true ∧ (s.tmr.get id).capPend = false)) :
      exec id.tend s = .fault .notEnabled :=
    exec_tend_of_not_enabled hf (Bool.eq_false_iff.2 (terminalEnabled_iff.not.2 h))
  exact ⟨hcap .rst, hcap .wr, hcap .rd, hend .rst, hend .wr, hend .rd⟩

/-- Settles O39: the read is legal, and no register shows the host's data. -/
theorem legalReadReturnsTheRegister : Obligations.LegalReadReturnsTheRegister := by
  intro s off hf haligned hin
  exact ⟨exec_memRead_of_legal hf (accessLegal_of_bounds haligned hin), readReg_setBusData off _ s⟩

/-- Settles O40, by the register and, at CTRL, by the strobes. -/
theorem legalWriteStrobesInitThenPoll : Obligations.LegalWriteStrobesInitThenPoll := by
  intro s off value hf
  refine ⟨?none, ?init, ?poll, ?both, ?ignored, ?illegal⟩
  case none =>
    rintro rfl h0 h1
    rw [exec_ctrl hf, ctrlWrite, h0, h1]
    rfl
  case init =>
    rintro rfl h0 h1
    rw [exec_ctrl hf, exec_init_of_unfaulted hf, ctrlWrite, h0, h1]
    rfl
  case poll =>
    rintro rfl h0 h1
    rw [exec_ctrl hf, ctrlWrite, h0, h1]
    rfl
  case both =>
    rintro rfl h0 h1
    obtain ⟨t, hpoll, -⟩ := exec_poll_unfaulted (initEntry s) hf
    refine ⟨initEntry s, t, exec_init_of_unfaulted hf, hpoll, ?_⟩
    rw [exec_ctrl hf, ctrlWrite, h0, h1]
    exact hpoll
  case ignored =>
    intro hoff haligned hin
    rw [exec_memWrite_of_legal hf (accessLegal_of_bounds haligned hin), if_neg hoff]
  case illegal =>
    intro width hbad
    rw [exec_memWrite_of_illegal hf (accessLegal_eq_false_iff.2 hbad), raise_badAccess_of_unfaulted hf]

/-- Settles O46: sign extension and zero extension keep the value. -/
theorem decodeIsExact : Obligations.DecodeIsExact := by
  intro a
  have hsigned : decodeTemp true a = a.signExtend 32 := rfl
  have hunsigned : decodeTemp false a = a.setWidth 32 := rfl
  rw [hsigned, hunsigned]
  refine ⟨BitVec.toInt_signExtend_of_le (by decide), BitVec.toNat_setWidth_of_le (by decide), ?signed, ?unsigned⟩
  case signed =>
    intro i hlow hhigh
    rw [BitVec.getLsbD_signExtend, BitVec.msb_eq_getLsbD_last]
    by_cases hi : i < 16
    · have hlast : i = 15 := by omega
      simp [hlast]
    · simp [hi, hhigh]
  case unsigned =>
    intro i hi
    simp [BitVec.getLsbD_of_ge a i hi]

/-- Settles O56: the report of Done or Error was made, and a later POLL there changes nothing. -/
theorem endedWellIsQuietUnderPoll : Obligations.EndedWellIsQuietUnderPoll := by
  intro s h
  simp only [State.endedWell, Bool.and_eq_true, Bool.or_eq_true, decide_eq_true_eq] at h
  obtain ⟨⟨⟨⟨⟨hreported, -⟩, -⟩, -⟩, -⟩, hf⟩ := h
  rcases hreported with ⟨ht, hdone⟩ | ⟨ht, herr⟩
  · exact (execPoll_eq_performArm (p := .done) ht rfl).trans
      (perform_total_eq_next_iff.2 ⟨hf, armDone_of_reported hdone⟩)
  · exact (execPoll_eq_performArm (p := .error) ht rfl).trans
      (perform_total_eq_next_iff.2 ⟨hf, armError_of_reported herr⟩)

/-- Settles O57: the lines are the old ones with line `k` replaced. -/
theorem linesShareNoState : Obligations.LinesShareNoState := by
  intro k ls ls' h
  obtain ⟨s, t, hs, hstep, rfl⟩ := stepLine_eq_next h
  have hk : k < ls.length := (List.getElem?_eq_some_iff.1 hs).1
  exact ⟨List.length_set, fun j hj => List.getElem?_set_ne hj.symm, s, t, hs, hstep, List.getElem?_set_self hk⟩

end Sys2Proof.Proofs
end
